-- ==== Sys2Proof/Word.lean ====
section
/-! DEFINITION. The word types of FCV (spec 00_scope.md R7, R8): every FCV value is unsigned; a byte has
8 bits, a counter 16 bits, a hex digit stands for 4 bits. -/

namespace Sys2Proof

/-- "A byte is an 8-bit unsigned value" (R8). -/
abbrev Byte := BitVec 8

/-- A 16-bit register value: NUM, ATTEMPTS, FAILCNT (R35, R38, R39). -/
abbrev Half := BitVec 16

/-- The 4-bit value one hex digit stands for (R10). -/
abbrev Nibble := BitVec 4

end Sys2Proof
end

