-- ==== Sys2Proof/Config.lean ====
section
/-! DEFINITION. What an implementation of FCV fixes (spec 00_scope.md R6), and the values the spec leaves
free: the answers of the transport (R64, R65, I7) and a host read of a stale OUTBUF byte (R41, I5).
A free value is an opaque constant without a body: no proof can see which value it is. -/

namespace Sys2Proof

/-- One answer of the transport to RxRead (R65): a byte of the incoming line, a timeout, or a fault. -/
inductive RxAnswer where
  | byte (b : Byte)
  | timeout
  | transportFault
  deriving DecidableEq, Repr, Inhabited

/-- One answer of the transport to TxWrite (R64). `transportFault n`: the transport faulted after `n` bytes
of the frame had been transmitted, so that every prefix, from empty to complete, is admitted. DESIGN CHOICE
(log entry 3): a count past the frame's end means the whole frame. -/
inductive TxAnswer where
  | ok
  | transportFault (transmitted : Nat)
  deriving DecidableEq, Repr, Inhabited

namespace Config

/-- ADDR_MAX: the largest unicast device address (R6). -/
abbrev addrMax : Nat := 31

/-- MAXRETRY_RESET: the reset value of SMAXRETRY (R6, R31). -/
abbrev maxRetryReset : Byte := 3

/-- INBUF_SIZE (R6, R40). -/
abbrev inbufSize : Nat := 64

/-- OUTBUF_SIZE (R6, R41). -/
abbrev outbufSize : Nat := 128

/-- RX_MAX: the longest candidate reply frame, `#` and CR included (R6, R43). -/
abbrev rxMax : Nat := 128

/-- TERM, the carriage return CR (R6). -/
abbrev term : Byte := 0x0D

/-- CMD_START, the character `@` (R6). -/
abbrev cmdStart : Byte := 0x40

/-- REPLY_START, the character `#` (R6). -/
abbrev replyStart : Byte := 0x23

/-- FREE VALUE (log entry 5). What a host read of an OUTBUF byte at or above OUTLEN that was written
earlier returns: "A model gives a host read of such a byte any value" (R41, I5). The argument is the
model's draw counter. -/
opaque staleByte : Nat → Byte

/-- FREE VALUE (log entry 3). The transport's answer to an RxRead for which the state lists none (R65, I7). -/
opaque rxAnswer : Nat → RxAnswer

/-- FREE VALUE (log entry 3). The transport's answer to a TxWrite for which the state lists none (R64, I7). -/
opaque txAnswer : Nat → TxAnswer

end Config

/-- The parameter R6 leaves to the deployment: BROADCAST_ADDR, "must lie in 32..255" (D10, I9). It is held
as its distance from 32, so that no other value can be written down (DESIGN CHOICE, log entry 1). -/
structure Params where
  broadcastOffset : Fin 224
  deriving DecidableEq, Repr

end Sys2Proof
end

