-- ==== Sys2Proof/Syntax.lean ====
section
/-! DEFINITION. Syntax: the eleven operation words (spec 30_encoding.md R70), the named registers of the
host register space (20_memory.md R49), the bus transactions (R48), what can happen next to FCV (R5, R139),
and the abstract syntax of host programs (R83, R84). -/

namespace Sys2Proof

/-- The operations of the opcode map, one constructor per row (R70). All 8 bits of an operation word are the
opcode, and no field inside the word carries an operand (R69): operands come from registers (R73). -/
inductive Instr where
  | configure
  | hexify
  | unhexify
  | checksum
  | encode
  | decode
  | send
  | receive
  | query
  | queryRetry
  | command
  deriving DecidableEq, Repr

/-- The named one-byte registers of the host register space, in the order of R49. -/
inductive Reg where
  | cmd | status | result | seqstate | saddr | scfg | smaxretry | lastfail
  | arg0 | arg1 | arg2 | inlen | outlen | numL | numH | attL | attH | fcntL | fcntH
  | exp0 | exp1 | act0 | act1
  deriving DecidableEq, Repr

/-- One host bus transaction, one byte wide (R48). -/
inductive BusAccess where
  | read (addr : Byte)
  | write (addr value : Byte)
  deriving DecidableEq, Repr

/-- What happens next to FCV: a host bus access, one sequencer step, the host's polling loop `wait` (R84), or
a reset from outside (R139). `reset n`: where the reset cuts a TxWrite short, `n` bytes of its frame had
been transmitted (R142). -/
inductive Event where
  | access (b : BusAccess)
  | seq
  | wait
  | reset (transmitted : Nat)
  deriving DecidableEq, Repr

/-- A location a host program names (R83): a register, `INBUF+i` or `OUTBUF+i`. -/
inductive Place where
  | reg (r : Reg)
  | inbuf (i : Nat)
  | outbuf (i : Nat)
  deriving DecidableEq, Repr

/-- One line of a host program: `wr`, `rd` and `op` (R83), and the pseudo-instructions (R84). -/
inductive Line where
  | wr (p : Place) (v : Byte)
  | rd (p : Place)
  | op (i : Instr)
  | load (s : List Byte)
  | config (a r c : Byte)
  | arg16 (n : Nat)
  | wait
  deriving DecidableEq, Repr

end Sys2Proof
end

