-- ==== Sys2Proof/WellFormed.lean ====
section
/-! DEFINITION. The checks on syntax: an operation word has no operand field (spec 30_encoding.md R69), so
every `Instr` is well formed; a host program's lines name buffer bytes that exist (R83), load at most 64
bytes, and give `arg16` a 16-bit number (R84). -/

namespace Sys2Proof

/-- Every operation is well formed: the word has no field besides its opcode (R69). -/
def Instr.wellFormed (i : Instr) : Bool :=
  match i with
  | .configure => true
  | .hexify => true
  | .unhexify => true
  | .checksum => true
  | .encode => true
  | .decode => true
  | .send => true
  | .receive => true
  | .query => true
  | .queryRetry => true
  | .command => true

/-- `INBUF+i` and `OUTBUF+i` name buffer bytes (R83), of which there are 64 and 128 (R49). -/
def Place.wellFormed (p : Place) : Bool :=
  match p with
  | .reg _ => true
  | .inbuf i => i < Config.inbufSize
  | .outbuf i => i < Config.outbufSize

/-- A line of a host program is well formed (R83, R84). -/
def Line.wellFormed (l : Line) : Bool :=
  match l with
  | .wr p _ => p.wellFormed
  | .rd p => p.wellFormed
  | .op i => i.wellFormed
  | .load s => s.length ≤ Config.inbufSize
  | .config _ _ _ => true
  | .arg16 n => n < 65536
  | .wait => true

end Sys2Proof
end

