-- ==== Sys2Proof/Decode.lean ====
section
/-! DEFINITION. Decoding and encoding of operation words (spec 30_encoding.md R69 to R72): one byte, all of
it opcode. -/

namespace Sys2Proof

/-- The opcode of an operation (R70). -/
def opcode (i : Instr) : Byte :=
  match i with
  | .configure => 0x01
  | .hexify => 0x02
  | .unhexify => 0x03
  | .checksum => 0x04
  | .encode => 0x05
  | .decode => 0x06
  | .send => 0x07
  | .receive => 0x08
  | .query => 0x09
  | .queryRetry => 0x0A
  | .command => 0x0B

/-- What the decoder answers: an operation and the bytes after its word; an illegal operation word, by name
(R72); or that there is no word to read. -/
inductive Decoded where
  | ok (i : Instr) (rest : List Byte)
  | badOpcode (v : Byte)
  | noWord
  deriving DecidableEq, Repr

/-- The operation an operation word selects, if it selects one (R70; R72: 0x00 and 0x0C to 0xFF select
none). -/
def decodeByte (v : Byte) : Option Instr :=
  match v.toNat with
  | 0x01 => some .configure
  | 0x02 => some .hexify
  | 0x03 => some .unhexify
  | 0x04 => some .checksum
  | 0x05 => some .encode
  | 0x06 => some .decode
  | 0x07 => some .send
  | 0x08 => some .receive
  | 0x09 => some .query
  | 0x0A => some .queryRetry
  | 0x0B => some .command
  | _ => none

/-- Decode the first operation word of a byte string; "Every operation word is one byte long" (R69). -/
def decode (bytes : List Byte) : Decoded :=
  match bytes with
  | [] => .noWord
  | v :: rest =>
    match decodeByte v with
    | some i => .ok i rest
    | none => .badOpcode v

/-- The word of an operation, as bytes (R69, R70). -/
def encode (i : Instr) : List Byte := [opcode i]

/-- The bytes of an instruction word of `n` bytes whose bits are `w`, bit 0 the least significant bit of the
first byte. -/
def wordBytes (n w : Nat) : List Byte :=
  match n with
  | 0 => []
  | k + 1 => BitVec.ofNat 8 w :: wordBytes k (w / 256)

/-- The operation the decoder reads from an instruction whose bits are `w`, of which the opcode table gives
`nbits`; every bit above them is 0. -/
def decodeTableWord (nbits w : Nat) : Option Instr :=
  match decode (wordBytes (max 1 (nbits / 8)) (w % 2 ^ nbits)) with
  | .ok i _ => some i
  | .badOpcode _ => none
  | .noWord => none

end Sys2Proof
end

