-- ==== Sys2Proof/Machine/State.lean ====
section
/-! DEFINITION. The state of FCV (spec 10_state.md) and of what surrounds it, as plain data; the reasons a
step can stop; the state after reset (R45). -/

namespace Sys2Proof.Machine

/-- The sequencer states of SEQSTATE (R22), codes 0 to 7 in this order. "Codes 8 to 255 never occur", and
cannot be written down here. -/
inductive SeqState where
  | idle
  | sending
  | awaitingReply
  | decodingOk
  | decodeFailed
  | done
  | exhausted
  | failed
  deriving DecidableEq, Repr

/-- The result codes of RESULT and LASTFAIL (30_encoding.md R76), codes 0x00 to 0x0D in this order. Codes
0x0E to 0xFF are never written, and cannot be written down here. -/
inductive ResultCode where
  | none
  | ok
  | nullResponse
  | rangeError
  | formatError
  | framingError
  | addressMismatch
  | checksumError
  | timeoutError
  | transportError
  | unexpectedReply
  | communicationError
  | noSession
  | badOpcode
  deriving DecidableEq, Repr

/-- The two phases of a receive (R42). -/
inductive RxPhase where
  | hunt
  | accum
  deriving DecidableEq, Repr

/-- A buffer's memory: (index, byte) pairs with the indices strictly rising. An index not listed has NO
VALUE: nothing has written that byte since reset (R40, R41; DESIGN CHOICE, log entry 7). -/
abbrev Memory := List Host.Cell

/-- What an error carries for EXP, ACT and NUM (R35, R36; 40_codec.md: "`info` names the values for EXP, ACT
and NUM"); zero where it names none (R102, R117). -/
structure ErrInfo where
  exp : Byte × Byte
  act : Byte × Byte
  num : Half
  deriving DecidableEq, Repr

/-- FCV's own architectural state, exactly the list of R20. BUSY (R24) and the STATUS byte (R25) are not
stored: they are functions of these fields. -/
structure Fcv where
  /-- SEQSTATE (R22). -/
  seqstate : SeqState
  /-- CMD, the operation word last stored (R23). -/
  cmd : Byte
  /-- SESSION_VALID, STATUS bit 1 (R26). -/
  sessionValid : Bool
  /-- BOOL, STATUS bit 2 (R27). -/
  bool : Bool
  /-- RESULT (R28). -/
  result : ResultCode
  /-- SADDR, the session's device address (R29). -/
  saddr : Byte
  /-- CKEN, SCFG bit 0; SCFG bits 7:1 read 0 (R30). -/
  cken : Bool
  /-- SMAXRETRY (R31). -/
  smaxretry : Byte
  /-- ARG0 (R32). -/
  arg0 : Byte
  /-- ARG1 (R32). -/
  arg1 : Byte
  /-- ARG2 (R32). -/
  arg2 : Byte
  /-- INLEN (R33). -/
  inlen : Byte
  /-- OUTLEN (R34). -/
  outlen : Byte
  /-- NUM, read as NUM_L and NUM_H (R35). -/
  num : Half
  /-- ATTEMPTS, read as ATT_L and ATT_H (R38). -/
  attempts : Half
  /-- FAILCNT, read as FCNT_L and FCNT_H (R39). -/
  failcnt : Half
  /-- EXP, read as EXP0 and EXP1 (R36). -/
  exp : Byte × Byte
  /-- ACT, read as ACT0 and ACT1 (R36). -/
  act : Byte × Byte
  /-- LASTFAIL (R37). -/
  lastfail : ResultCode
  /-- INBUF[0..63] (R40). -/
  inbuf : Memory
  /-- OUTBUF[0..127] (R41). -/
  outbuf : Memory
  /-- RXPHASE, hidden (R42). -/
  rxphase : RxPhase
  /-- RXBUF, hidden (R43). -/
  rxbuf : List Byte
  deriving DecidableEq, Repr

/-- One frame write FCV began, and how much of the frame went out on the line (R64, R142). -/
inductive TxRecord where
  /-- The transport answered Ok. -/
  | whole (frame : List Byte)
  /-- The transport answered TransportFault after `n` bytes. -/
  | faulted (frame : List Byte) (n : Nat)
  /-- A reset cut the write short after `n` bytes. -/
  | cutByReset (frame : List Byte) (n : Nat)
  deriving DecidableEq, Repr

/-- The transport as FCV meets it (20_memory.md R63 to R66): the answers it will give to reads and writes, in
order, and the frame writes it has been handed, the oldest first. It is not FCV state (R20), and a reset does
not reach it (R142). -/
structure Transport where
  rx : List RxAnswer
  tx : List TxAnswer
  sent : List TxRecord
  deriving DecidableEq, Repr

/-- FCV (R20) together with its surroundings, which are the model's own (DESIGN CHOICE, log entry 6): the parameter of R6, the transport, the schedule of what happens
next (the host program's accesses interleaved with sequencer steps and resets, R5, R129), the values host
reads returned, oldest first, and the counter that draws free values. -/
structure State where
  fcv : Fcv
  params : Params
  line : Transport
  schedule : List Event
  reads : List (Byte × Byte)
  freeCount : Nat
  deriving DecidableEq, Repr

/-- Why a step stops with a fault. -/
inductive Fault where
  /-- Raised by a host read of an INBUF byte nothing has written since reset (R40, I5). Safe: the spec has a
  model fault here. -/
  | inbufNoValue (index : Nat)
  /-- Raised by a host read of an OUTBUF byte nothing has written since reset (R41, I5), and by COMMAND's
  interpretation of such a byte, which no run reaches (log entry 9). Safe: the spec has a model fault here. -/
  | outbufNoValue
  /-- Raised by an operation whose operand INBUF[0..INLEN) covers a byte nothing has written since reset (R40,
  I5). Safe: the spec has a model fault here. -/
  | operandNoValue
  /-- Raised by a SENDING step whose frame does not encode, which R113 says cannot happen, since the frame was
  checked at issue (R104): no run reaches it (DEDUCED, log entry 9). Safe: the model stops. -/
  | frameNotEncodable
  deriving DecidableEq, Repr

/-- Why a step is refused. -/
inductive Refusal where
  /-- An instruction that has no meaning yet. Raised by no arm of this model. Safe: the model stops. -/
  | notModelled (mnemonic : String)
  /-- Raised by a host write while BUSY = 1: "The model instead refuses a host program that makes one" (R53,
  I8; log entry 8). Safe: the model stops where FCV would ignore the write (R52). -/
  | hostWriteWhileBusy
  deriving DecidableEq, Repr

/-- FCV after reset: the table of R45. -/
def Fcv.reset : Fcv where
  seqstate := .idle
  cmd := 0x00
  sessionValid := false
  bool := false
  result := .none
  saddr := 0x00
  cken := false
  smaxretry := Config.maxRetryReset
  arg0 := 0x00
  arg1 := 0x00
  arg2 := 0x00
  inlen := 0x00
  outlen := 0x00
  num := 0x0000
  attempts := 0x0000
  failcnt := 0x0000
  exp := (0x00, 0x00)
  act := (0x00, 0x00)
  lastfail := .none
  inbuf := []
  outbuf := []
  rxphase := .hunt
  rxbuf := []

/-- The default of the parameter of R6: BROADCAST_ADDR = 255. -/
def defaultParams : Params where
  broadcastOffset := 223

/-- The machine right after reset (R140): FCV at the values of R45, the default parameter (R6), and
surroundings that hold nothing yet (log entries 2, 3 and 6). -/
def State.reset : State where
  fcv := Fcv.reset
  params := defaultParams
  line := { rx := [], tx := [], sent := [] }
  schedule := []
  reads := []
  freeCount := 0

end Sys2Proof.Machine
end

