-- ==== Sys2Proof/Machine/Flags.lean ====
section
/-! DEFINITION. The status of FCV as software reads it: the SEQSTATE codes (spec 10_state.md R22), BUSY (R24),
the STATUS byte (R25 to R27), the result codes (30_encoding.md R76), SCFG (R30), and the byte order of 16-bit
values (20_memory.md R56). -/

namespace Sys2Proof.Machine

/-- The code SEQSTATE reads as (R22). -/
def SeqState.code (s : SeqState) : Byte :=
  match s with
  | .idle => 0
  | .sending => 1
  | .awaitingReply => 2
  | .decodingOk => 3
  | .decodeFailed => 4
  | .done => 5
  | .exhausted => 6
  | .failed => 7

/-- The code RESULT and LASTFAIL read as (R76). -/
def ResultCode.code (r : ResultCode) : Byte :=
  match r with
  | .none => 0x00
  | .ok => 0x01
  | .nullResponse => 0x02
  | .rangeError => 0x03
  | .formatError => 0x04
  | .framingError => 0x05
  | .addressMismatch => 0x06
  | .checksumError => 0x07
  | .timeoutError => 0x08
  | .transportError => 0x09
  | .unexpectedReply => 0x0A
  | .communicationError => 0x0B
  | .noSession => 0x0C
  | .badOpcode => 0x0D

/-- BUSY: "BUSY = (1 <= reg[SEQSTATE] <= 4) ? 1 : 0" (R24). -/
def Fcv.busy (f : Fcv) : Bool :=
  1 ≤ f.seqstate.code.toNat && f.seqstate.code.toNat ≤ 4

/-- One bit as a byte, zero-extended (R7). -/
def zext8 (b : Bool) : Byte := if b then 1 else 0

/-- The STATUS byte: BUSY in bit 0, SESSION_VALID in bit 1, BOOL in bit 2, bits 7:3 read 0 (R25). -/
def Fcv.statusByte (f : Fcv) : Byte :=
  zext8 f.busy ||| (zext8 f.sessionValid <<< 1) ||| (zext8 f.bool <<< 2)

/-- The SCFG byte: CKEN in bit 0, bits 7:1 read 0 (R30). -/
def Fcv.scfgByte (f : Fcv) : Byte := zext8 f.cken

/-- The low byte (`_L`) of a 16-bit value: bits 7:0, at the lower address (R35, R56). -/
def lowByte (v : Half) : Byte := v.extractLsb' 0 8

/-- The high byte (`_H`) of a 16-bit value: bits 15:8, at the next address (R35, R56). -/
def highByte (v : Half) : Byte := v.extractLsb' 8 8

end Sys2Proof.Machine
end

