-- ==== Sys2Proof/Machine/Codec.lean ====
section
/-! DEFINITION. The codec functions (spec 40_codec.md section 1, R86 to R97): pure functions on byte strings. -/

namespace Sys2Proof.Machine

/-- "Each function returns `Ok(value)` or `Err(code, info)`" (40_codec.md). -/
inductive CodecResult (α : Type) where
  | ok (value : α)
  | err (code : ResultCode) (info : ErrInfo)
  deriving DecidableEq, Repr

/-- The information of an error that names none: zero everywhere (R102, R117). -/
def noInfo : ErrInfo where
  exp := (0, 0)
  act := (0, 0)
  num := 0

/-- The information of an error that names a number only. -/
def numInfo (n : Nat) : ErrInfo := { noInfo with num := BitVec.ofNat 16 n }

/-- The first two bytes of a string, as EXP and ACT hold them: byte 0 first (R36). -/
def firstTwo (s : List Byte) : Byte × Byte :=
  match s with
  | a :: b :: _ => (a, b)
  | _ => (0, 0)

/-- `s[i..j)`: the bytes at the indices i to j-1 (R8). -/
def slice (s : List Byte) (i j : Nat) : List Byte := (s.drop i).take (j - i)

/-- `hexdigit(v)`: the byte of "0123456789ABCDEF" at index v (R10), by ASCII code (I1; PRESUMED, log entry 11). -/
def hexdigit (v : Nibble) : Byte :=
  if v.toNat < 10 then BitVec.ofNat 8 (0x30 + v.toNat) else BitVec.ofNat 8 (0x41 + (v.toNat - 10))

/-- The two hex digits of a byte, "its high nibble first" (R10, R86). -/
def hexField (b : Byte) : List Byte := [hexdigit (b.extractLsb' 4 4), hexdigit (b.extractLsb' 0 4)]

/-- `hexifyByte(n)` (R86). -/
def hexifyByte (n : Nat) : CodecResult (List Byte) :=
  if 255 < n then .err .rangeError noInfo else .ok (hexField (BitVec.ofNat 8 n))

/-- `hexval(c)`: the value of one hex digit, in either case of letter (R87). -/
def hexval (c : Byte) : Option Nat :=
  if 0x30 ≤ c.toNat ∧ c.toNat ≤ 0x39 then some (c.toNat - 0x30)
  else if 0x41 ≤ c.toNat ∧ c.toNat ≤ 0x46 then some (c.toNat - 0x41 + 10)
  else if 0x61 ≤ c.toNat ∧ c.toNat ≤ 0x66 then some (c.toNat - 0x61 + 10)
  else none

/-- `unhexify(s)` (R87). -/
def unhexify (s : List Byte) : CodecResult Nat :=
  match s with
  | [c1, c0] =>
    match hexval c1, hexval c0 with
    | some h, some l => .ok (16 * h + l)
    | _, _ => .err .formatError noInfo
  | _ => .err .formatError noInfo

/-- `cksum_sum(bytes)`: the sum of the bytes' values, an unbounded natural number (R88). -/
def cksumSum (bytes : List Byte) : Nat :=
  match bytes with
  | [] => 0
  | b :: rest => b.toNat + cksumSum rest

/-- The reduction loop of R89, run at most `fuel` times: "while S > 256: S <- S - 256". -/
def ckreduceLoop (fuel s : Nat) : Nat :=
  match fuel with
  | 0 => s
  | k + 1 => if 256 < s then ckreduceLoop k (s - 256) else s

/-- `ckreduce(S)` (R89). The loop runs fewer than S / 256 + 1 times, so the bound cuts nothing off. -/
def ckreduce (s : Nat) : Nat := ckreduceLoop (s / 256 + 1) s

/-- `ckraw(bytes) = ckreduce(cksum_sum(bytes))` (R89). -/
def ckraw (bytes : List Byte) : Nat := ckreduce (cksumSum bytes)

/-- `checksum(bytes)` (R91): the hexified raw checksum; RANGE_ERROR with num = 256 where the raw value is 256. -/
def checksum (bytes : List Byte) : CodecResult (List Byte) :=
  if ckraw bytes = 256 then .err .rangeError (numInfo 256) else hexifyByte (ckraw bytes)

/-- `encodeCommand(a, p)` (R92): `@`, the address field, the payload, the checksum of the last two, CR (R77). -/
def encodeCommand (a : Byte) (p : List Byte) : CodecResult (List Byte) :=
  match checksum (hexField a ++ p) with
  | .err _ _ => .err .rangeError (numInfo 256)
  | .ok ck => .ok ([Config.cmdStart] ++ hexField a ++ p ++ ck ++ [Config.term])

/-- The checksum check of `decodeReply` on a frame's body (R96): the last two bytes of the body against the
hexified raw checksum of the address field and the payload; RANGE_ERROR, and no comparison, where that is
256. -/
def checkReplyChecksum (body : List Byte) : CodecResult (List Byte) :=
  let payload := slice body 2 (body.length - 2)
  let rc := slice body (body.length - 2) body.length
  let raw := ckraw (slice body 0 2 ++ payload)
  if raw = 256 then .err .rangeError (numInfo 256)
  else
    let cc := hexField (BitVec.ofNat 8 raw)
    if rc ≠ cc then
      .err .checksumError { exp := firstTwo cc, act := firstTwo rc, num := BitVec.ofNat 16 raw }
    else .ok payload

/-- The address check of `decodeReply` on a frame's body (R95), byte for byte; then the payload (R97), or the
checksum check (R96) where cken = 1. -/
def checkReplyBody (body : List Byte) (e : Byte) (cken : Bool) : CodecResult (List Byte) :=
  let af := slice body 0 2
  let ef := hexField e
  if af ≠ ef then
    .err .addressMismatch { exp := firstTwo ef, act := firstTwo af, num := 0 }
  else if cken then checkReplyChecksum body
  else .ok (slice body 2 body.length)

/-- `decodeReply(f, e, cken)` (R93): the shape check (R94), then the address (R95), then the checksum (R96);
the first failing check decides. -/
def decodeReply (f : List Byte) (e : Byte) (cken : Bool) : CodecResult (List Byte) :=
  if f.length < 1 ∨ f[0]? ≠ some Config.replyStart then .err .framingError noInfo
  else if f[f.length - 1]? ≠ some Config.term then .err .framingError noInfo
  else
    let body := slice f 1 (f.length - 1)
    if body.length < (if cken then 4 else 2) then .err .framingError noInfo
    else checkReplyBody body e cken

/-- The literal reply "OK" of COMMAND (R111). -/
def okText : List Byte := [0x4F, 0x4B]

/-- The literal reply "Err" of COMMAND (R111). -/
def errText : List Byte := [0x45, 0x72, 0x72]

end Sys2Proof.Machine
end

