-- ==== Sys2Proof/Machine/Ops.lean ====
section
/-! DEFINITION. The named operations over FCV's state: buffer memory (spec 10_state.md R40, R41), the posting of
results and of errors (00_scope.md R9, 60_exceptions.md R130), the clearing at issue (10_state.md R44, which is
all there is to a return from an error, R131), and the issue of an operation (30_encoding.md R71). -/

namespace Sys2Proof.Machine

/-- The byte at index `i` of a buffer; `none` where nothing has written it since reset (R40, R41). -/
def Memory.read (m : Memory) (i : Nat) : Option Byte :=
  match m with
  | [] => none
  | (j, b) :: rest => if j = i then some b else Memory.read rest i

/-- Write the byte at index `i` of a buffer, keeping the indices rising. -/
def Memory.write (m : Memory) (i : Nat) (v : Byte) : Memory :=
  match m with
  | [] => [(i, v)]
  | (j, b) :: rest =>
    if i < j then (i, v) :: (j, b) :: rest
    else if i = j then (i, v) :: rest
    else (j, b) :: Memory.write rest i v

/-- The canonical form of a buffer of `size` bytes: indices strictly rising and below `size`. An unlisted index
has no value, so no entry can equal what an unlisted index reads as. -/
abbrev Memory.wf (size : Nat) (m : Memory) : Prop :=
  m.Pairwise (fun c d => c.1 < d.1) ∧ ∀ c ∈ m, c.1 < size

/-- The `n` bytes of a buffer from index `i` on; `none` where one of them has no value. -/
def Memory.readFrom (m : Memory) (i n : Nat) : Option (List Byte) :=
  match n with
  | 0 => some []
  | k + 1 =>
    match m.read i, m.readFrom (i + 1) k with
    | some b, some rest => some (b :: rest)
    | _, _ => none

/-- `BUF[0..n)`: the first `n` bytes of a buffer (R40, R74). -/
def Memory.readRange (m : Memory) (n : Nat) : Option (List Byte) := m.readFrom 0 n

/-- Write a byte string from index `i` on. -/
def Memory.writeFrom (m : Memory) (i : Nat) (s : List Byte) : Memory :=
  match s with
  | [] => m
  | b :: rest => (m.write i b).writeFrom (i + 1) rest

/-- `OUTBUF[0..len(r)) <- r ; reg[OUTLEN] <- len(r)` (R98, R100, R101, R102, R117). -/
def Fcv.putOut (f : Fcv) (r : List Byte) : Fcv :=
  { f with outbuf := f.outbuf.writeFrom 0 r, outlen := BitVec.ofNat 8 r.length }

/-- `NUM <- n` (R35). -/
def Fcv.setNum (f : Fcv) (n : Nat) : Fcv := { f with num := BitVec.ofNat 16 n }

/-- `finish(state, result)` (R9). -/
def Fcv.finish (f : Fcv) (st : SeqState) (r : ResultCode) : Fcv :=
  { f with seqstate := st, result := r }

/-- "store `info` in the error-information registers" (R9, R36), NUM among them (R35, R117). -/
def Fcv.storeInfo (f : Fcv) (info : ErrInfo) : Fcv :=
  { f with exp := info.exp, act := info.act, num := info.num }

/-- TAKING AN ERROR, FCV's counterpart of trap entry (R123, R130): `raise E(info)` stores the information, then
`finish(FAILED, E)`; `raise E(none)` stores nothing (R9). No program counter is saved, no mode changes and
no vector is taken (R130). -/
def Fcv.raise (f : Fcv) (e : ResultCode) (info : Option ErrInfo) : Fcv :=
  match info with
  | none => f.finish .failed e
  | some i => (f.storeInfo i).finish .failed e

/-- The clearing at issue (R44). It stands where another machine has its return from an exception: "The host
resumes FCV by issuing the next operation. That operation's issue clears the output registers" (R131). -/
def Fcv.clearForIssue (f : Fcv) : Fcv :=
  { f with
    result := .none, bool := false, outlen := 0, num := 0, attempts := 0, failcnt := 0
    exp := (0, 0), act := (0, 0), lastfail := .none, rxphase := .hunt, rxbuf := [] }

/-- A write of `v` to CMD while BUSY = 0, up to the operation's own rule (R71): CMD holds `v`, and the
registers of R44 are cleared. -/
def Fcv.issued (f : Fcv) (v : Byte) : Fcv := { f.clearForIssue with cmd := v }

/-- A change of FCV alone, in its surroundings. -/
def State.withFcv (s : State) (f : Fcv) : State := { s with fcv := f }

/-- What FCV's own part of a step answers, in the surroundings of `s`. -/
def State.lift (s : State) (o : Host.Outcome Fcv Fault Refusal) : Host.Outcome State Fault Refusal :=
  match o with
  | .next f => .next (s.withFcv f)
  | .fault r => .fault r
  | .refused r => .refused r

/-- The issue of an operation: a host write of `v` to CMD (R71). A write while BUSY = 1 is refused (R53);
otherwise CMD is stored, the registers of R44 are cleared, and `body` runs the issue part of the
operation's own rule. -/
def State.issue (s : State) (v : Byte) (body : Fcv → Host.Outcome Fcv Fault Refusal) :
    Host.Outcome State Fault Refusal :=
  if s.fcv.busy then .refused .hostWriteWhileBusy else s.lift (body (s.fcv.issued v))

end Sys2Proof.Machine
end

