-- ==== Sys2Proof/Machine/Operands.lean ====
section
/-! DEFINITION. Operands and the checks on them (spec 30_encoding.md R73 to R75; 41_session.md R104). -/

namespace Sys2Proof.Machine

/-- BROADCAST_ADDR, a parameter in 32..255 (R6, D10). -/
def broadcastAddr (p : Params) : Byte := BitVec.ofNat 8 (32 + p.broadcastOffset.val)

/-- A device-address operand is valid when it is at most ADDR_MAX or equals BROADCAST_ADDR (R75). -/
def validAddress (p : Params) (a : Byte) : Bool :=
  a.toNat ≤ Config.addrMax || a == broadcastAddr p

/-- HEXIFY's operand `n = ARG1 * 256 + ARG0` (R73, R98). -/
def Fcv.hexifyOperand (f : Fcv) : Nat := f.arg1.toNat * 256 + f.arg0.toNat

/-- ARG2 bit 0, the CKEN operand of CONFIGURE and DECODE; bits 7:1 are ignored (R73). -/
def Fcv.ckenOperand (f : Fcv) : Bool := f.arg2.getLsbD 0

/-- The check of INLEN (R74): RANGE_ERROR where INLEN > 64. -/
def Fcv.checkInlen (f : Fcv) (k : Host.Outcome Fcv Fault Refusal) : Host.Outcome Fcv Fault Refusal :=
  if Config.inbufSize < f.inlen.toNat then .next (f.raise .rangeError none) else k

/-- `operand <- INBUF[0 .. INLEN)` (R74): a fault where the operand covers a byte nothing has written (R40). -/
def Fcv.readOperand (f : Fcv) (k : List Byte → Host.Outcome Fcv Fault Refusal) :
    Host.Outcome Fcv Fault Refusal :=
  match f.inbuf.readRange f.inlen.toNat with
  | none => .fault .operandNoValue
  | some operand => k operand

/-- The INBUF operand of an operation that checks nothing between INLEN and the operand (R74). -/
def Fcv.withOperand (f : Fcv) (k : List Byte → Host.Outcome Fcv Fault Refusal) :
    Host.Outcome Fcv Fault Refusal :=
  f.checkInlen (f.readOperand k)

/-- The check of the address operand ARG0 (R75): RANGE_ERROR where it is not valid. -/
def Fcv.withAddress (f : Fcv) (p : Params) (k : Host.Outcome Fcv Fault Refusal) :
    Host.Outcome Fcv Fault Refusal :=
  if validAddress p f.arg0 then k else .next (f.raise .rangeError none)

/-- The operands of ENCODE and DECODE, in the order of their own rules (R101, R102, R127): INLEN, then the address,
and only then is INBUF read (DEDUCED, log entry 4). -/
def Fcv.withAddressedOperand (f : Fcv) (p : Params) (k : List Byte → Host.Outcome Fcv Fault Refusal) :
    Host.Outcome Fcv Fault Refusal :=
  f.checkInlen (f.withAddress p (f.readOperand k))

/-- The first session check (R104, R106): NO_SESSION while SESSION_VALID = 0. -/
def Fcv.withSession (f : Fcv) (k : Host.Outcome Fcv Fault Refusal) : Host.Outcome Fcv Fault Refusal :=
  if f.sessionValid then k else .next (f.raise .noSession none)

/-- The last session check (R104), the payload read: that the command frame encodes. NUM gets the raw checksum of
the frame. -/
def Fcv.checkFrame (f : Fcv) (k : Fcv → Fcv) (p : List Byte) : Fcv :=
  let g := f.setNum (ckraw (hexField f.saddr ++ p))
  match encodeCommand f.saddr p with
  | .err c _ => g.raise c none
  | .ok _ => k g

/-- The session checks of every session operation but RECEIVE, in the order of R104: the session, INLEN, and
that the command frame encodes. -/
def Fcv.withCommandFrame (f : Fcv) (k : Fcv → Fcv) : Host.Outcome Fcv Fault Refusal :=
  f.withSession (f.withOperand fun p => .next (f.checkFrame k p))

/-- `ATTEMPTS <- 1 ; state <- SENDING` (R107, R109, R110). -/
def Fcv.startSending (f : Fcv) : Fcv := { f with attempts := 1, seqstate := .sending }

/-- `RXPHASE <- HUNT ; RXBUF <- [] ; state <- AWAITING_REPLY` (R108, R113). -/
def Fcv.startReceive (f : Fcv) : Fcv :=
  { f with rxphase := .hunt, rxbuf := [], seqstate := .awaitingReply }

end Sys2Proof.Machine
end

