-- ==== Sys2Proof/Machine/CodecOps.lean ====
section
/-! DEFINITION. The meanings of the codec operations HEXIFY, UNHEXIFY, CHECKSUM, ENCODE and DECODE (spec
40_codec.md section 2). Each is atomic: it completes in the host step that writes CMD (R70). None needs a
session, and none touches the transport or the session registers. -/

namespace Sys2Proof.Machine

/-- HEXIFY's own rule (R98). -/
def hexifyBody (f : Fcv) : Fcv :=
  let g := f.setNum f.hexifyOperand
  match hexifyByte f.hexifyOperand with
  | .err c _ => g.raise c none
  | .ok r => (g.putOut r).finish .done .ok

/-- HEXIFY, CMD = 0x02 (R98). -/
def execHexify (s : State) : Host.Outcome State Fault Refusal :=
  s.issue (opcode .hexify) fun f => .next (hexifyBody f)

/-- UNHEXIFY's own rule, its operand read (R99). -/
def unhexifyBody (f : Fcv) (operand : List Byte) : Fcv :=
  match unhexify operand with
  | .err c _ => f.raise c none
  | .ok n => (f.setNum n).finish .done .ok

/-- UNHEXIFY, CMD = 0x03 (R99). -/
def execUnhexify (s : State) : Host.Outcome State Fault Refusal :=
  s.issue (opcode .unhexify) fun f => f.withOperand fun x => .next (unhexifyBody f x)

/-- CHECKSUM's own rule, its operand read (R100). -/
def checksumBody (f : Fcv) (operand : List Byte) : Fcv :=
  let g := f.setNum (ckraw operand)
  match checksum operand with
  | .err c _ => g.raise c none
  | .ok r => (g.putOut r).finish .done .ok

/-- CHECKSUM, CMD = 0x04 (R100). -/
def execChecksum (s : State) : Host.Outcome State Fault Refusal :=
  s.issue (opcode .checksum) fun f => f.withOperand fun x => .next (checksumBody f x)

/-- ENCODE's own rule, its address checked and its payload read (R101). -/
def encodeBody (f : Fcv) (payload : List Byte) : Fcv :=
  let g := f.setNum (ckraw (hexField f.arg0 ++ payload))
  match encodeCommand f.arg0 payload with
  | .err c _ => g.raise c none
  | .ok r => (g.putOut r).finish .done .ok

/-- ENCODE, CMD = 0x05 (R101). -/
def execEncode (s : State) : Host.Outcome State Fault Refusal :=
  s.issue (opcode .encode) fun f => f.withAddressedOperand s.params fun x => .next (encodeBody f x)

/-- A decoded reply (R102, R117): the payload goes to OUTBUF, and NUM gets the raw checksum of the address field
and the payload where cken = 1. -/
def Fcv.storeReply (f : Fcv) (frame payload : List Byte) (cken : Bool) : Fcv :=
  let g := f.putOut payload
  if cken then g.setNum (ckraw (slice frame 1 3 ++ payload)) else g

/-- A decode failure's record (R36, R37, R102, R117): EXP, ACT and NUM get its information, LASTFAIL its code. -/
def Fcv.storeFailure (f : Fcv) (c : ResultCode) (info : ErrInfo) : Fcv :=
  { f.storeInfo info with lastfail := c }

/-- DECODE's own rule, its address checked and its frame read (R102). -/
def decodeBody (f : Fcv) (frame : List Byte) : Fcv :=
  match decodeReply frame f.arg0 f.ckenOperand with
  | .ok p => (f.storeReply frame p f.ckenOperand).finish .done .ok
  | .err c info =>
    if c = .rangeError then ({ f with num := info.num }).raise .rangeError none
    else (f.storeFailure c info).finish .failed c

/-- DECODE, CMD = 0x06 (R102). -/
def execDecode (s : State) : Host.Outcome State Fault Refusal :=
  s.issue (opcode .decode) fun f => f.withAddressedOperand s.params fun x => .next (decodeBody f x)

end Sys2Proof.Machine
end

