-- ==== Sys2Proof/Machine/SessionOps.lean ====
section
/-! DEFINITION. The meanings of CONFIGURE and of the session operations SEND, RECEIVE, QUERY, QUERY_RETRY and
COMMAND (spec 41_session.md section 1): the issue part, which runs in the host step that writes CMD. The
sequencer's steps (Machine/Sequencer.lean) carry the last five to their end. -/

namespace Sys2Proof.Machine

/-- CONFIGURE's own rule, its address checked (R105): the session registers are written. -/
def configureBody (f : Fcv) : Fcv :=
  ({ f with
      saddr := f.arg0, smaxretry := f.arg1, cken := f.ckenOperand, sessionValid := true }).finish .done .ok

/-- CONFIGURE, CMD = 0x01 (R105). -/
def execConfigure (s : State) : Host.Outcome State Fault Refusal :=
  s.issue (opcode .configure) fun f => f.withAddress s.params (.next (configureBody f))

/-- SEND, CMD = 0x07 (R107). -/
def execSend (s : State) : Host.Outcome State Fault Refusal :=
  s.issue (opcode .send) fun f => f.withCommandFrame Fcv.startSending

/-- RECEIVE, CMD = 0x08 (R108): no INLEN check and no frame. -/
def execReceive (s : State) : Host.Outcome State Fault Refusal :=
  s.issue (opcode .receive) fun f => f.withSession (.next f.startReceive)

/-- QUERY, CMD = 0x09 (R109). -/
def execQuery (s : State) : Host.Outcome State Fault Refusal :=
  s.issue (opcode .query) fun f => f.withCommandFrame Fcv.startSending

/-- QUERY_RETRY, CMD = 0x0A (R110). -/
def execQueryRetry (s : State) : Host.Outcome State Fault Refusal :=
  s.issue (opcode .queryRetry) fun f => f.withCommandFrame Fcv.startSending

/-- COMMAND, CMD = 0x0B (R111). -/
def execCommand (s : State) : Host.Outcome State Fault Refusal :=
  s.issue (opcode .command) fun f => f.withCommandFrame Fcv.startSending

/-- A write to CMD of a value that selects no operation (R71, R72): the defined outcome BAD_OPCODE. -/
def execBadOpcode (v : Byte) (s : State) : Host.Outcome State Fault Refusal :=
  s.issue v fun f => .next (f.finish .failed .badOpcode)

end Sys2Proof.Machine
end

