-- ==== Sys2Proof/Machine/Dispatch.lean ====
section
/-! DEFINITION. The dispatch of the operations: what the host's write of an operation's word to CMD does (spec
30_encoding.md R70, R71), one arm per operation. -/

namespace Sys2Proof.Machine

-- One arm per row of the opcode map (R70).
def exec (i : Instr) (s : State) : Host.Outcome State Fault Refusal :=
  match i with
  | .configure => Sys2Proof.Machine.execConfigure s
  | .hexify => Sys2Proof.Machine.execHexify s
  | .unhexify => Sys2Proof.Machine.execUnhexify s
  | .checksum => Sys2Proof.Machine.execChecksum s
  | .encode => Sys2Proof.Machine.execEncode s
  | .decode => Sys2Proof.Machine.execDecode s
  | .send => Sys2Proof.Machine.execSend s
  | .receive => Sys2Proof.Machine.execReceive s
  | .query => Sys2Proof.Machine.execQuery s
  | .queryRetry => Sys2Proof.Machine.execQueryRetry s
  | .command => Sys2Proof.Machine.execCommand s

end Sys2Proof.Machine
end

