-- ==== Sys2Proof/Machine/Sequencer.lean ====
section
/-! DEFINITION. The transport transactions (spec 20_memory.md R63 to R66) and the sequencer's steps (41_session.md
section 2, R113 to R119). "While BUSY = 1, the sequencer agent has exactly one enabled step, chosen by
SEQSTATE"; each step makes at most one transport transaction. -/

namespace Sys2Proof.Machine

/-- `RxRead()` (R65): the transport's next answer, taken from those the state lists, or a free value where it
lists none. A byte leaves the incoming line when it is answered; a Timeout or a TransportFault leaves every
byte where it was. -/
def State.rxRead (s : State) : RxAnswer × State :=
  match s.line.rx with
  | a :: rest => (a, { s with line := { s.line with rx := rest } })
  | [] => (Config.rxAnswer s.freeCount, { s with freeCount := s.freeCount + 1 })

/-- What a TxWrite of `frame` with the answer `a` puts on record (R64). -/
def txRecord (frame : List Byte) (a : TxAnswer) : TxRecord :=
  match a with
  | .ok => .whole frame
  | .transportFault n => .faulted frame n

/-- The bytes of a frame write that went out on the line, in index order (R64, R142). -/
def TxRecord.bytes (r : TxRecord) : List Byte :=
  match r with
  | .whole frame => frame
  | .faulted frame n => frame.take n
  | .cutByReset frame n => frame.take n

/-- The outgoing line: every byte transmitted so far, in order (R64). -/
def Transport.outgoing (l : Transport) : List Byte := l.sent.flatMap TxRecord.bytes

/-- The byte of the incoming line an answer stands for, if it is one (R65). -/
def answerByte (a : RxAnswer) : Option Byte :=
  match a with
  | .byte b => some b
  | .timeout => none
  | .transportFault => none

/-- The incoming line: the bytes FCV has not consumed yet, in the order they arrive (R66). -/
def Transport.incoming (l : Transport) : List Byte := l.rx.filterMap answerByte

/-- Put a frame write on record, the newest last. -/
def State.logTx (s : State) (r : TxRecord) : State :=
  { s with line := { s.line with sent := s.line.sent ++ [r] } }

/-- `TxWrite(frame)` (R64): the transport's next answer, and the frame on record. -/
def State.txWrite (s : State) (frame : List Byte) : TxAnswer × State :=
  match s.line.tx with
  | a :: rest => (a, ({ s with line := { s.line with tx := rest } }).logTx (txRecord frame a))
  | [] =>
    (Config.txAnswer s.freeCount,
      ({ s with freeCount := s.freeCount + 1 }).logTx (txRecord frame (Config.txAnswer s.freeCount)))

/-- The command frame of the operation in progress, "a pure function of SADDR and INBUF[0..INLEN)" (R104):
`none` where the operand has no value, else the encoder's answer. -/
def Fcv.commandFrame (f : Fcv) : Option (CodecResult (List Byte)) :=
  match f.inbuf.readRange f.inlen.toNat with
  | none => none
  | some p => some (encodeCommand f.saddr p)

/-- What SENDING does once the frame's write is answered Ok (R113). -/
def Fcv.afterSend (f : Fcv) : Fcv :=
  if f.cmd = opcode .send then f.finish .done .ok else f.startReceive

/-- The step in SENDING (R113). -/
def seqSending (s : State) : Host.Outcome State Fault Refusal :=
  match s.fcv.commandFrame with
  | none => .fault .operandNoValue
  | some (.err _ _) => .fault .frameNotEncodable
  | some (.ok frame) =>
    match s.txWrite frame with
    | (.transportFault _, t) => .next (t.withFcv (t.fcv.raise .transportError none))
    | (.ok, t) => .next (t.withFcv t.fcv.afterSend)

/-- `FAILCNT <- FAILCNT + 1` and a decode failure's record, then DECODE_FAILED (R116, R117). -/
def Fcv.failAttempt (f : Fcv) (c : ResultCode) (info : ErrInfo) : Fcv :=
  { f.storeFailure c info with failcnt := f.failcnt + 1, seqstate := .decodeFailed }

/-- The decode at the terminator (R117), RXBUF holding the whole candidate frame. -/
def Fcv.decodeCandidate (f : Fcv) : Fcv :=
  match decodeReply f.rxbuf f.saddr f.cken with
  | .ok p => { f.storeReply f.rxbuf p f.cken with seqstate := .decodingOk }
  | .err c info =>
    if c = .rangeError then ({ f with num := info.num }).raise .rangeError none
    else f.failAttempt c info

/-- The hunt phase, having read byte `b` (R115). -/
def Fcv.huntByte (f : Fcv) (b : Byte) : Fcv :=
  if b = Config.replyStart then { f with rxbuf := [Config.replyStart], rxphase := .accum } else f

/-- The accumulate phase, having read byte `b` (R116). -/
def Fcv.accumByte (f : Fcv) (b : Byte) : Fcv :=
  if f.rxbuf.length = Config.rxMax then f.failAttempt .framingError noInfo
  else if b = Config.term then ({ f with rxbuf := f.rxbuf ++ [Config.term] }).decodeCandidate
  else { f with rxbuf := f.rxbuf ++ [b] }

/-- A byte read in AWAITING_REPLY, by phase (R114). -/
def Fcv.rxByte (f : Fcv) (b : Byte) : Fcv :=
  match f.rxphase with
  | .hunt => f.huntByte b
  | .accum => f.accumByte b

/-- What AWAITING_REPLY does with the transport's answer (R114). -/
def Fcv.rxAnswer (f : Fcv) (a : RxAnswer) : Fcv :=
  match a with
  | .byte b => f.rxByte b
  | .timeout => f.raise .timeoutError none
  | .transportFault => f.raise .transportError none

/-- The step in AWAITING_REPLY (R114 to R117). -/
def seqAwaiting (s : State) : Host.Outcome State Fault Refusal :=
  match s.rxRead with
  | (a, t) => .next (t.withFcv (t.fcv.rxAnswer a))

/-- COMMAND's interpretation of the decoded payload (R111): the comparison is exact and case-sensitive. -/
def Fcv.interpret (f : Fcv) (p : List Byte) : Fcv :=
  if p = okText then ({ f with bool := true }).finish .done .ok
  else if p = errText then ({ f with bool := false }).finish .done .ok
  else f.finish .done .unexpectedReply

/-- The step in DECODING_OK (R118). -/
def seqDecodingOk (s : State) : Host.Outcome State Fault Refusal :=
  if s.fcv.cmd = opcode .command then
    match s.fcv.outbuf.readRange s.fcv.outlen.toNat with
    | none => .fault .outbufNoValue
    | some p => .next (s.withFcv (s.fcv.interpret p))
  else .next (s.withFcv (s.fcv.finish .done .ok))

/-- What DECODE_FAILED does (R119): end, retry the whole request, or end exhausted. An operation word that never
reaches this state is treated as COMMAND (DESIGN CHOICE, log entry 9: no run gets there). -/
def Fcv.retryOrEnd (f : Fcv) : Fcv :=
  if f.cmd = opcode .receive ∨ f.cmd = opcode .query then f.finish .failed f.lastfail
  else if f.attempts.toNat < f.smaxretry.toNat + 1 then
    { f with attempts := f.attempts + 1, seqstate := .sending }
  else if f.cmd = opcode .queryRetry then f.finish .exhausted .nullResponse
  else f.finish .exhausted .communicationError

/-- The step in DECODE_FAILED (R119). -/
def seqDecodeFailed (s : State) : Host.Outcome State Fault Refusal :=
  .next (s.withFcv s.fcv.retryOrEnd)

/-- One sequencer step, chosen by SEQSTATE. "While BUSY = 0 the sequencer has no step" (R24): nothing happens. -/
def seqStep (s : State) : Host.Outcome State Fault Refusal :=
  match s.fcv.seqstate with
  | .sending => seqSending s
  | .awaitingReply => seqAwaiting s
  | .decodingOk => seqDecodingOk s
  | .decodeFailed => seqDecodeFailed s
  | .idle => .next s
  | .done => .next s
  | .exhausted => .next s
  | .failed => .next s

end Sys2Proof.Machine
end

