-- ==== Sys2Proof/Machine/HostBus.lean ====
section
/-! DEFINITION. The host register space (spec 20_memory.md R46 to R53), reset from outside (70_reset_and_hazards.md
R139 to R142), and the events a step runs. -/

namespace Sys2Proof.Machine

/-- The address of a register (R49). -/
def regAddr (r : Reg) : Byte :=
  match r with
  | .cmd => 0x00
  | .status => 0x01
  | .result => 0x02
  | .seqstate => 0x03
  | .saddr => 0x04
  | .scfg => 0x05
  | .smaxretry => 0x06
  | .lastfail => 0x07
  | .arg0 => 0x08
  | .arg1 => 0x09
  | .arg2 => 0x0A
  | .inlen => 0x0B
  | .outlen => 0x0C
  | .numL => 0x0D
  | .numH => 0x0E
  | .attL => 0x0F
  | .attH => 0x10
  | .fcntL => 0x11
  | .fcntH => 0x12
  | .exp0 => 0x13
  | .exp1 => 0x14
  | .act0 => 0x15
  | .act1 => 0x16

/-- What a host address reaches: "Every address decodes to a register, a buffer byte or a reserved location"
(R47). -/
inductive Location where
  | reg (r : Reg)
  | reserved
  | inbuf (i : Nat)
  | outbuf (i : Nat)
  deriving DecidableEq, Repr

/-- The register map (R49). -/
def locate (a : Byte) : Location :=
  match a.toNat with
  | 0x00 => .reg .cmd
  | 0x01 => .reg .status
  | 0x02 => .reg .result
  | 0x03 => .reg .seqstate
  | 0x04 => .reg .saddr
  | 0x05 => .reg .scfg
  | 0x06 => .reg .smaxretry
  | 0x07 => .reg .lastfail
  | 0x08 => .reg .arg0
  | 0x09 => .reg .arg1
  | 0x0A => .reg .arg2
  | 0x0B => .reg .inlen
  | 0x0C => .reg .outlen
  | 0x0D => .reg .numL
  | 0x0E => .reg .numH
  | 0x0F => .reg .attL
  | 0x10 => .reg .attH
  | 0x11 => .reg .fcntL
  | 0x12 => .reg .fcntH
  | 0x13 => .reg .exp0
  | 0x14 => .reg .exp1
  | 0x15 => .reg .act0
  | 0x16 => .reg .act1
  | n => if n < 0x40 then .reserved else if n < 0x80 then .inbuf (n - 0x40) else .outbuf (n - 0x80)

/-- The byte a host read of a register returns (R49; 10_state.md R22 to R39). -/
def Fcv.readReg (f : Fcv) (r : Reg) : Byte :=
  match r with
  | .cmd => f.cmd
  | .status => f.statusByte
  | .result => f.result.code
  | .seqstate => f.seqstate.code
  | .saddr => f.saddr
  | .scfg => f.scfgByte
  | .smaxretry => f.smaxretry
  | .lastfail => f.lastfail.code
  | .arg0 => f.arg0
  | .arg1 => f.arg1
  | .arg2 => f.arg2
  | .inlen => f.inlen
  | .outlen => f.outlen
  | .numL => lowByte f.num
  | .numH => highByte f.num
  | .attL => lowByte f.attempts
  | .attH => highByte f.attempts
  | .fcntL => lowByte f.failcnt
  | .fcntH => highByte f.failcnt
  | .exp0 => f.exp.1
  | .exp1 => f.exp.2
  | .act0 => f.act.1
  | .act1 => f.act.2

/-- What a host read finds: a byte, a byte that may read as any value, or no value (R40, R41, I5). -/
inductive BusValue where
  | byte (b : Byte)
  | anyValue
  | noValue (r : Fault)
  deriving DecidableEq, Repr

/-- The value at a location of the host register space. An OUTBUF byte that nothing has written has no value;
one at or above OUTLEN that was written earlier reads as any value (R41). Reserved locations read 0x00. -/
def Fcv.busValue (f : Fcv) (l : Location) : BusValue :=
  match l with
  | .reg r => .byte (f.readReg r)
  | .reserved => .byte 0x00
  | .inbuf i =>
    match f.inbuf.read i with
    | some b => .byte b
    | none => .noValue (.inbufNoValue i)
  | .outbuf i =>
    match f.outbuf.read i with
    | some b => if i < f.outlen.toNat then .byte b else .anyValue
    | none => .noValue .outbufNoValue

/-- Put the value a host read returned on record, the newest last. -/
def State.logRead (s : State) (a v : Byte) : State := { s with reads := s.reads ++ [(a, v)] }

/-- `MemRead(a, 1)` (R48): "No read has a side effect" (R51) on FCV; the value goes on record. -/
def busRead (a : Byte) (s : State) : Host.Outcome State Fault Refusal :=
  match s.fcv.busValue (locate a) with
  | .byte b => .next (s.logRead a b)
  | .anyValue =>
    .next (({ s with freeCount := s.freeCount + 1 }).logRead a (Config.staleByte s.freeCount))
  | .noValue r => .fault r

/-- Store a byte at a read-write location other than CMD; a write anywhere else is ignored (R50). -/
def Fcv.storeByte (f : Fcv) (l : Location) (v : Byte) : Fcv :=
  match l with
  | .reg .arg0 => { f with arg0 := v }
  | .reg .arg1 => { f with arg1 := v }
  | .reg .arg2 => { f with arg2 := v }
  | .reg .inlen => { f with inlen := v }
  | .reg _ => f
  | .reserved => f
  | .inbuf i => { f with inbuf := f.inbuf.write i v }
  | .outbuf _ => f

/-- A host write of `v` to CMD (R71): the operation the decoder reads from the word, or BAD_OPCODE. -/
def writeCmd (v : Byte) (s : State) : Host.Outcome State Fault Refusal :=
  match decode [v] with
  | .ok i _ => exec i s
  | .badOpcode w => execBadOpcode w s
  | .noWord => .next s

/-- `MemWrite(a, 1, v)` (R48, R50, R51). A write while BUSY = 1 is refused (R53). -/
def busWrite (a v : Byte) (s : State) : Host.Outcome State Fault Refusal :=
  if s.fcv.busy then .refused .hostWriteWhileBusy
  else if locate a = .reg .cmd then writeCmd v s
  else .next (s.withFcv (s.fcv.storeByte (locate a) v))

/-- One host access (R48). -/
def runAccess (b : BusAccess) (s : State) : Host.Outcome State Fault Refusal :=
  match b with
  | .read a => busRead a s
  | .write a v => busWrite a v s

/-- What a reset leaves on the line (R142): where it cuts a TxWrite short, which is where SEQSTATE is SENDING,
the first `n` bytes of the frame; nothing otherwise (DESIGN CHOICE, log entry 12). -/
def State.cutTx (s : State) (n : Nat) : State :=
  if s.fcv.seqstate = .sending then
    match s.fcv.commandFrame with
    | some (.ok frame) => s.logTx (.cutByReset frame n)
    | some (.err _ _) => s
    | none => s
  else s

/-- A reset from outside (R139 to R142): "every piece of FCV state" takes its reset value; the transport keeps
its unread bytes, and the parameter stays as it is (DESIGN CHOICE, log entry 12). -/
def resetFcv (n : Nat) (s : State) : State := (s.cutTx n).withFcv Fcv.reset

/-- The host's polling loop `wait` (R84), `rest` being the schedule after it: while BUSY = 1 the sequencer
moves and the loop goes on; the last poll reads STATUS with BUSY = 0 and ends it. The polls before it change
nothing (R51), and are not put on record (DESIGN CHOICE, log entry 10). -/
def runWait (s : State) : Host.Outcome State Fault Refusal :=
  if s.fcv.busy then
    match seqStep s with
    | .next t => .next { t with schedule := .wait :: t.schedule }
    | .fault r => .fault r
    | .refused r => .refused r
  else busRead (regAddr .status) s

/-- One event of the schedule, the event itself already taken off it. -/
def runEvent (e : Event) (s : State) : Host.Outcome State Fault Refusal :=
  match e with
  | .access b => runAccess b s
  | .seq => seqStep s
  | .wait => runWait s
  | .reset n => .next (resetFcv n s)

/-- A step with nothing scheduled: the sequencer moves if it has a step (R24), and otherwise nothing happens
(DESIGN CHOICE, log entry 2). -/
def runIdle (s : State) : Host.Outcome State Fault Refusal := seqStep s

/-- The schedule with a host write of `v` to CMD put first. -/
def State.scheduleWord (s : State) (v : Byte) : State :=
  { s with schedule := .access (.write (regAddr .cmd) v) :: s.schedule }

end Sys2Proof.Machine
end

