-- ==== Sys2Proof/Machine/Step.lean ====
section
/-! DEFINITION. One step of the machine: the next event of the schedule, or the sequencer where nothing is
scheduled (spec 00_scope.md R5; 60_exceptions.md R129). FCV fetches no instructions (10_state.md R21): an
operation word comes to it as a host write to CMD. -/

namespace Sys2Proof.Machine

/-- One step. What comes next is the schedule's first event (DESIGN CHOICE, log entries 2 and 13). -/
def step (s : State) : Host.Outcome State Fault Refusal :=
  match s.schedule with
  | [] => runIdle s
  | e :: rest => runEvent e { s with schedule := rest }

/-- `s` with the operation word whose bits are `w` as the next host write to CMD, so that the very next step
issues it (R71; DESIGN CHOICE, log entry 2). -/
def State.withFetchWord (s : State) (nbits w : Nat) : State :=
  s.scheduleWord (BitVec.ofNat 8 (w % 2 ^ nbits))

end Sys2Proof.Machine
end

