-- ==== Sys2Proof/Machine/HostProgram.lean ====
section
/-! DEFINITION. Host programs (spec 30_encoding.md section 5): what each line stands for on the host bus (R83,
R84), and the binary form of a list of bus transactions (R85), written as ASCII text. -/

namespace Sys2Proof.Machine

/-- The host address of a location a program names (R83, R49). -/
def placeAddr (p : Place) : Byte :=
  match p with
  | .reg r => regAddr r
  | .inbuf i => BitVec.ofNat 8 (0x40 + i)
  | .outbuf i => BitVec.ofNat 8 (0x80 + i)

/-- `wr REG, v` (R83). -/
def writeEvent (p : Place) (v : Byte) : Event := .access (.write (placeAddr p) v)

/-- `wr INBUF+i, s[0]`, and so on for every byte of `s` (R84). -/
def loadEvents (i : Nat) (s : List Byte) : List Event :=
  match s with
  | [] => []
  | b :: rest => writeEvent (.inbuf i) b :: loadEvents (i + 1) rest

/-- The events a line of a host program stands for (R83, R84). -/
def expandLine (l : Line) : List Event :=
  match l with
  | .wr p v => [writeEvent p v]
  | .rd p => [.access (.read (placeAddr p))]
  | .op i => [writeEvent (.reg .cmd) (opcode i)]
  | .load s => loadEvents 0 s ++ [writeEvent (.reg .inlen) (BitVec.ofNat 8 s.length)]
  | .config a r c =>
    [writeEvent (.reg .arg0) a, writeEvent (.reg .arg1) r, writeEvent (.reg .arg2) c,
      writeEvent (.reg .cmd) (opcode .configure)]
  | .arg16 n =>
    [writeEvent (.reg .arg0) (BitVec.ofNat 8 (n % 256)), writeEvent (.reg .arg1) (BitVec.ofNat 8 (n / 256))]
  | .wait => [.wait]

/-- A host program as the schedule it stands for: its lines in program order (R58, R83). -/
def expandProgram (ls : List Line) : List Event := ls.flatMap expandLine

/-- The machine with a host program as the next thing to happen: how a program comes to run (log entry 2). -/
def State.withProgram (s : State) (ls : List Line) : State := { s with schedule := expandProgram ls }

/-- The bus transactions of an event: a `wait` becomes one or more reads of STATUS, `polls + 1` of them here
(R84); a sequencer step or a reset is none. -/
def eventAccesses (polls : Nat) (e : Event) : List BusAccess :=
  match e with
  | .access b => [b]
  | .seq => []
  | .wait => List.replicate (polls + 1) (.read (regAddr .status))
  | .reset _ => []

/-- One bus transaction in binary form, ended by a line feed: `W aa dd` or `R aa`, in hex (R85). -/
def binaryAccess (b : BusAccess) : List Byte :=
  match b with
  | .write a v => [0x57, 0x20] ++ hexField a ++ [0x20] ++ hexField v ++ [0x0A]
  | .read a => [0x52, 0x20] ++ hexField a ++ [0x0A]

/-- The binary form of a list of bus transactions (R85), one a line. -/
def binaryForm (bs : List BusAccess) : List Byte := bs.flatMap binaryAccess

/-- Two hex digits read as a byte (R85, R87). -/
def hexByte (h l : Byte) : Option Byte :=
  match unhexify [h, l] with
  | .ok n => some (BitVec.ofNat 8 n)
  | .err _ _ => none

/-- Put a transaction before those read from the rest of the text. -/
def consAccess (b : Option BusAccess) (rest : Option (List BusAccess)) : Option (List BusAccess) :=
  match b, rest with
  | some x, some xs => some (x :: xs)
  | _, _ => none

/-- `R aa`, its two hex digits given. -/
def readForm (h l : Byte) : Option BusAccess := (hexByte h l).map .read

/-- `W aa dd`, its four hex digits given. -/
def writeForm (h l h' l' : Byte) : Option BusAccess :=
  match hexByte h l, hexByte h' l' with
  | some a, some v => some (.write a v)
  | _, _ => none

/-- Read the binary form back (R85): a list of lines `W aa dd` and `R aa`; `none` for any other text. -/
def parseBinary (text : List Byte) : Option (List BusAccess) :=
  match text with
  | [] => some []
  | 0x57#8 :: 0x20#8 :: h :: l :: 0x20#8 :: h' :: l' :: 0x0A#8 :: rest =>
    consAccess (writeForm h l h' l') (parseBinary rest)
  | 0x52#8 :: 0x20#8 :: h :: l :: 0x0A#8 :: rest => consAccess (readForm h l) (parseBinary rest)
  | _ => none

end Sys2Proof.Machine
end

