-- ==== Sys2Proof/Machine/HostText.lean ====
section
/-! DEFINITION. The text of host programs (spec 30_encoding.md R83, R84): the words of a line, the numbers and
characters, the names of registers and operations, and the lines themselves. What R83 and R84 leave open of the
spelling is a DESIGN CHOICE (log entry 14). -/

namespace Sys2Proof.Machine

/-- The words of a program line. -/
inductive Token where
  | word (s : List Char)
  | str (s : List Char)
  | num (n : Nat)
  | comma
  | plus
  deriving DecidableEq, Repr

/-- The ASCII code of a character (R8, R83). R8 and R83 give codes to ASCII characters only. DESIGN CHOICE (log entry
14): a character outside ASCII stands for its code point modulo 256, and its line is not refused. -/
def asciiCode (c : Char) : Byte := BitVec.ofNat 8 c.toNat

/-- The value of a decimal digit, if it is one. -/
def decimalValue (c : Char) : Option Nat :=
  if 48 ≤ c.toNat ∧ c.toNat ≤ 57 then some (c.toNat - 48) else none

/-- The value of a hex digit, if it is one, in either case of letter. -/
def hexDigitValue (c : Char) : Option Nat := if c.toNat < 128 then hexval (asciiCode c) else none

/-- The number a string of digits stands for in a base, its value so far being `acc`. -/
def digitsValue (base : Nat) (digit : Char → Option Nat) (acc : Nat) (s : List Char) : Option Nat :=
  match s with
  | [] => some acc
  | c :: rest =>
    match digit c with
    | some d => digitsValue base digit (acc * base + d) rest
    | none => none

/-- "Numbers are decimal or `0x` hexadecimal" (R83); any other run of letters and digits is a name. -/
def wordToken (s : List Char) : Token :=
  match s with
  | '0' :: 'x' :: c :: rest =>
    match digitsValue 16 hexDigitValue 0 (c :: rest) with
    | some n => .num n
    | none => .word s
  | _ =>
    match digitsValue 10 decimalValue 0 s with
    | some n => .num n
    | none => .word s

/-- Put the word collected so far, its last character first, before the words that follow. -/
def flush (acc : List Char) (rest : Option (List Token)) : Option (List Token) :=
  match acc with
  | [] => rest
  | c :: cs => rest.map fun ts => wordToken (c :: cs).reverse :: ts

/-- Put a token before the words that follow. -/
def emit (t : Token) (rest : Option (List Token)) : Option (List Token) := rest.map fun ts => t :: ts

/-- Where the reader of a line stands: between or inside words, or inside a quoted string (R84). -/
inductive LexMode where
  | plain
  | quoted
  deriving DecidableEq, Repr

/-- The words of one line. `;` starts a comment; `'c'` is the code of the character c (R83); a quoted string may
use the escape `\r` for CR (R84). DESIGN CHOICE (log entry 14): where c is no ASCII character, `'c'` is the number of its
code point, which a byte operand takes only below 256. -/
def lexLine (m : LexMode) (acc : List Char) (s : List Char) : Option (List Token) :=
  match m, s with
  | .plain, [] => flush acc (some [])
  | .plain, ';' :: _ => flush acc (some [])
  | .plain, ' ' :: rest => flush acc (lexLine .plain [] rest)
  | .plain, '\t' :: rest => flush acc (lexLine .plain [] rest)
  | .plain, ',' :: rest => flush acc (emit .comma (lexLine .plain [] rest))
  | .plain, '+' :: rest => flush acc (emit .plus (lexLine .plain [] rest))
  | .plain, '\'' :: c :: '\'' :: rest => flush acc (emit (.num c.toNat) (lexLine .plain [] rest))
  | .plain, '"' :: rest => flush acc (lexLine .quoted [] rest)
  | .plain, c :: rest => lexLine .plain (c :: acc) rest
  | .quoted, [] => none
  | .quoted, '"' :: rest => emit (.str acc.reverse) (lexLine .plain [] rest)
  | .quoted, '\\' :: 'r' :: rest => lexLine .quoted ('\r' :: acc) rest
  | .quoted, c :: rest => lexLine .quoted (c :: acc) rest

/-- The mnemonics of the opcode map (R70). -/
def instrNames : List (String × Instr) :=
  [("CONFIGURE", .configure), ("HEXIFY", .hexify), ("UNHEXIFY", .unhexify), ("CHECKSUM", .checksum),
    ("ENCODE", .encode), ("DECODE", .decode), ("SEND", .send), ("RECEIVE", .receive), ("QUERY", .query),
    ("QUERY_RETRY", .queryRetry), ("COMMAND", .command)]

/-- The register names of the register map (R49). -/
def regNames : List (String × Reg) :=
  [("CMD", .cmd), ("STATUS", .status), ("RESULT", .result), ("SEQSTATE", .seqstate), ("SADDR", .saddr),
    ("SCFG", .scfg), ("SMAXRETRY", .smaxretry), ("LASTFAIL", .lastfail), ("ARG0", .arg0), ("ARG1", .arg1),
    ("ARG2", .arg2), ("INLEN", .inlen), ("OUTLEN", .outlen), ("NUM_L", .numL), ("NUM_H", .numH),
    ("ATT_L", .attL), ("ATT_H", .attH), ("FCNT_L", .fcntL), ("FCNT_H", .fcntH), ("EXP0", .exp0),
    ("EXP1", .exp1), ("ACT0", .act0), ("ACT1", .act1)]

/-- What a name stands for in a table of names. -/
def lookupName {α : Type} (table : List (String × α)) (s : List Char) : Option α :=
  match table with
  | [] => none
  | (name, x) :: rest => if name.toList = s then some x else lookupName rest s

/-- A location at the head of a list of words, with the words after it (R83). -/
def parsePlace (ts : List Token) : Option (Place × List Token) :=
  match ts with
  | .word w :: .plus :: .num i :: rest =>
    if w = "INBUF".toList then some (.inbuf i, rest)
    else if w = "OUTBUF".toList then some (.outbuf i, rest)
    else none
  | .word w :: rest => (lookupName regNames w).map fun r => (.reg r, rest)
  | _ => none

/-- A number as a byte, if it is one. -/
def byteNumber (n : Nat) : Option Byte := if n < 256 then some (BitVec.ofNat 8 n) else none

/-- `wr REG, v` (R83), the first word taken off. -/
def parseWr (ts : List Token) : Option Line :=
  match parsePlace ts with
  | some (p, [.comma, .num v]) => (byteNumber v).map fun b => .wr p b
  | _ => none

/-- `rd REG` (R83), the first word taken off. -/
def parseRd (ts : List Token) : Option Line :=
  match parsePlace ts with
  | some (p, []) => some (.rd p)
  | _ => none

/-- `config a, r, c` (R84), the first word taken off. -/
def parseConfig (ts : List Token) : Option Line :=
  match ts with
  | [.num a, .comma, .num r, .comma, .num c] =>
    match byteNumber a, byteNumber r, byteNumber c with
    | some x, some y, some z => some (.config x y z)
    | _, _, _ => none
  | _ => none

/-- `op MNEMONIC` (R83), the first word taken off. -/
def parseOp (ts : List Token) : Option Line :=
  match ts with
  | [.word w] => (lookupName instrNames w).map .op
  | _ => none

/-- `load "s"` (R84), the first word taken off. DESIGN CHOICE (log entry 14): a character outside ASCII is taken, as
`asciiCode` says. -/
def parseLoad (ts : List Token) : Option Line :=
  match ts with
  | [.str s] => some (.load (s.map asciiCode))
  | _ => none

/-- `arg16 n` (R84), the first word taken off. -/
def parseArg16 (ts : List Token) : Option Line :=
  match ts with
  | [.num n] => some (.arg16 n)
  | _ => none

/-- The line a list of words stands for, by its first word (R83, R84). -/
def parseTokens (ts : List Token) : Option Line :=
  match ts with
  | .word w :: rest =>
    if w = "wr".toList then parseWr rest
    else if w = "rd".toList then parseRd rest
    else if w = "op".toList then parseOp rest
    else if w = "load".toList then parseLoad rest
    else if w = "config".toList then parseConfig rest
    else if w = "arg16".toList then parseArg16 rest
    else if w = "wait".toList ∧ rest = [] then some .wait
    else none
  | _ => none

/-- One line of text: no line where it holds only a comment or nothing; `none` where it is ill formed. -/
def parseLine (s : List Char) : Option (List Line) :=
  match lexLine .plain [] s with
  | none => none
  | some [] => some []
  | some (t :: ts) =>
    match parseTokens (t :: ts) with
    | some l => if l.wellFormed then some [l] else none
    | none => none

/-- A host program's text, given as its lines (R83). -/
def parseProgram (lines : List (List Char)) : Option (List Line) :=
  match lines with
  | [] => some []
  | s :: rest =>
    match parseLine s, parseProgram rest with
    | some l, some ls => some (l ++ ls)
    | _, _ => none

end Sys2Proof.Machine
end

