-- ==== Sys2Proof/Safety.lean ====
section
/-! DEFINITION. The terms claims are stated in: what an operation leaves unchanged, how it ends, the transport's
next answers, runs, and the invariant of the machine. Nothing of the machine itself is defined here. -/

namespace Sys2Proof.Machine

/-- A step answers a next state. -/
def Completes (o : Host.Outcome State Fault Refusal) : Prop := ∃ t, o = .next t

/-- The indices from 0 on hold the bytes of `s`, read one byte at a time. -/
abbrev HoldsBytes (m : Memory) (s : List Byte) : Prop := ∀ i, i < s.length → m.read i = s[i]?

/-- Every byte at index `n` or above reads as before. -/
def SameFrom (n : Nat) (m m' : Memory) : Prop := ∀ i, n ≤ i → m'.read i = m.read i

/-- Every byte reads as before. -/
def SameBytes (m m' : Memory) : Prop := ∀ i, m'.read i = m.read i

/-- The INBUF operand of an operation is `p` (R74): INLEN is at most 64 and INBUF[0..INLEN) holds `p`. -/
abbrev OperandIs (f : Fcv) (p : List Byte) : Prop :=
  f.inlen.toNat ≤ 64 ∧ p.length = f.inlen.toNat ∧ HoldsBytes f.inbuf p

/-- The session registers and SESSION_VALID are unchanged (R26, R29 to R31). -/
structure SameSession (f g : Fcv) : Prop where
  sessionValid : g.sessionValid = f.sessionValid
  saddr : g.saddr = f.saddr
  cken : g.cken = f.cken
  smaxretry : g.smaxretry = f.smaxretry

/-- The operand registers and INBUF are unchanged (R32, R33, R40). -/
structure SameOperands (f g : Fcv) : Prop where
  arg0 : g.arg0 = f.arg0
  arg1 : g.arg1 = f.arg1
  arg2 : g.arg2 = f.arg2
  inlen : g.inlen = f.inlen
  inbuf : SameBytes f.inbuf g.inbuf

/-- Everything around FCV is unchanged: the parameter, the transport, the schedule, the values read. -/
structure SameSurroundings (s t : State) : Prop where
  params : t.params = s.params
  line : t.line = s.line
  schedule : t.schedule = s.schedule
  reads : t.reads = s.reads
  freeCount : t.freeCount = s.freeCount

/-- The state after the issue of operation word `v`, where RESULT, SEQSTATE, NUM, OUTLEN and OUTBUF are as given,
`out` being the bytes of OUTBUF[0..OUTLEN), and everything R44 clears besides them is clear. ATTEMPTS, the
error information and the session are said separately. -/
structure IssuedAs (s t : State) (v : Byte) (st : SeqState) (r : ResultCode) (num : Nat) (out : List Byte) :
    Prop where
  surroundings : SameSurroundings s t
  operands : SameOperands s.fcv t.fcv
  cmd : t.fcv.cmd = v
  seqstate : t.fcv.seqstate = st
  result : t.fcv.result = r
  bool : t.fcv.bool = false
  num : t.fcv.num.toNat = num
  outlen : t.fcv.outlen.toNat = out.length
  outbuf : HoldsBytes t.fcv.outbuf out
  outbufRest : SameFrom out.length s.fcv.outbuf t.fcv.outbuf
  failcnt : t.fcv.failcnt = 0
  rxphase : t.fcv.rxphase = .hunt
  rxbuf : t.fcv.rxbuf = []

/-- The error information is clear: EXP, ACT and LASTFAIL (R36, R37). -/
structure NoFailure (f : Fcv) : Prop where
  exp : f.exp = (0, 0)
  act : f.act = (0, 0)
  lastfail : f.lastfail = .none

/-- An atomic operation, or an operation that ends at issue, with no decode failure and the session as it was:
ATTEMPTS is 0 (R38). -/
structure EndsAtIssue (s t : State) (v : Byte) (st : SeqState) (r : ResultCode) (num : Nat) (out : List Byte) :
    Prop where
  issued : IssuedAs s t v st r num out
  session : SameSession s.fcv t.fcv
  attempts : t.fcv.attempts = 0
  noFailure : NoFailure t.fcv

/-- The five session operations (R104). -/
abbrev IsSessionOp (i : Instr) : Prop :=
  i = .send ∨ i = .receive ∨ i = .query ∨ i = .queryRetry ∨ i = .command

/-- The session operations that send a command frame (R104). -/
abbrev IsSendingOp (i : Instr) : Prop := i = .send ∨ i = .query ∨ i = .queryRetry ∨ i = .command

/-- A valid device address (R75). -/
abbrev IsDeviceAddress (p : Params) (a : Byte) : Prop := a.toNat ≤ 31 ∨ a = broadcastAddr p

/-- The command frame to address `a` with payload `p`, written out from the layout of R77. -/
def commandLayout (a : Byte) (p : List Byte) : List Byte :=
  0x40#8 :: hexField a ++ p ++ hexField (BitVec.ofNat 8 (ckraw (hexField a ++ p))) ++ [0x0D#8]

/-- The reply frame from address `a` with payload `p`, written out from the layouts of R78 and R79. -/
def replyLayout (a : Byte) (p : List Byte) (cken : Bool) : List Byte :=
  if cken then 0x23#8 :: hexField a ++ p ++ hexField (BitVec.ofNat 8 (ckraw (hexField a ++ p))) ++ [0x0D#8]
  else 0x23#8 :: hexField a ++ p ++ [0x0D#8]

/-- The three errors that are retry-eligible (R125). -/
abbrev RetryEligible (c : ResultCode) : Prop :=
  c = .framingError ∨ c = .addressMismatch ∨ c = .checksumError

/-- The transport's next answer to TxWrite: the first listed, or the free value (R64). -/
def State.nextTx (s : State) : TxAnswer :=
  match s.line.tx with
  | a :: _ => a
  | [] => Config.txAnswer s.freeCount

/-- The transport's next answer to RxRead: the first listed, or the free value (R65). -/
def State.nextRx (s : State) : RxAnswer :=
  match s.line.rx with
  | a :: _ => a
  | [] => Config.rxAnswer s.freeCount

/-- `n` steps of the machine. -/
def runSteps (n : Nat) (s : State) : Host.Outcome State Fault Refusal := Sys2Proof.core.run n s

/-- The next event is `e`, and `rest` comes after it. -/
def State.before (s : State) (e : Event) (rest : List Event) : State := { s with schedule := e :: rest }

/-- `s` with the schedule `rest`. -/
def State.withSchedule (s : State) (rest : List Event) : State := { s with schedule := rest }

/-- Whether an event is a host write to `a`. -/
def isWriteTo (a : Byte) (e : Event) : Bool :=
  match e with
  | .access (.write b _) => b == a
  | .access (.read _) => false
  | .seq => false
  | .wait => false
  | .reset _ => false

/-- The answers the transport gives where the line delivers the bytes `bs` (R65). -/
def answers (bs : List Byte) : List RxAnswer := bs.map .byte

/-- The answers of a transport to all the reads to come, from the first `n` on. -/
def laterAnswers (x : Nat → RxAnswer) (n : Nat) : Nat → RxAnswer := fun k => x (n + k)

/-- The first `n` answers of a transport. -/
def firstAnswers (x : Nat → RxAnswer) (n : Nat) : List RxAnswer :=
  match n with
  | 0 => []
  | k + 1 => x 0 :: firstAnswers (laterAnswers x 1) k

/-- A transport is fair (R153): wherever a hunt phase begins, a later answer is `#`, Timeout or TransportFault. (Every read
of an accumulate phase is answered by a byte, Timeout or TransportFault in any case, R65.) -/
def FairAnswers (x : Nat → RxAnswer) : Prop :=
  ∀ n, ∃ m, n ≤ m ∧ (x m = .byte 0x23 ∨ x m = .timeout ∨ x m = .transportFault)

/-- `s` with `rx` as the answers the transport will give to reads. -/
def State.hearing (s : State) (rx : List RxAnswer) : State := { s with line := { s.line with rx := rx } }

/-- The next step is a step of the sequencer: scheduled, in the loop `wait`, or with nothing scheduled. -/
def SequencerTurn (s : State) : Prop :=
  s.schedule = [] ∨ (∃ rest, s.schedule = .seq :: rest) ∨ ∃ rest, s.schedule = .wait :: rest

/-- A candidate reply frame as the receiver finds it (R80, R115, R116): `#`, bytes other than CR, CR, at most
RX_MAX bytes in all. -/
def CandidateFrame (c : List Byte) : Prop :=
  c.length ≤ 128 ∧ ∃ body, 0x0D#8 ∉ body ∧ c = 0x23#8 :: body ++ [0x0D#8]

/-- A candidate frame that fails to decode with a retry-eligible error (R117, R125). -/
def FailingFrame (f : Fcv) (c : List Byte) : Prop :=
  CandidateFrame c ∧ ∃ e info, RetryEligible e ∧ decodeReply c f.saddr f.cken = .err e info

/-- The invariant of FCV, `p` being the parameter of R6. -/
structure FcvInv (p : Params) (f : Fcv) : Prop where
  /-- INBUF is in canonical form (R40). -/
  inbufForm : f.inbuf.wf 64
  /-- OUTBUF is in canonical form (R41). -/
  outbufForm : f.outbuf.wf 128
  /-- OUTLEN is 0..128 (R34). -/
  outlenBound : f.outlen.toNat ≤ 128
  /-- Every byte of OUTBUF[0..OUTLEN) has a value (R41). -/
  outputValued : ∀ i, i < f.outlen.toNat → f.outbuf.read i ≠ none
  /-- OUTLEN is 0 while an operation is in progress, until a reply decodes (R44, R119). -/
  outlenCleared : f.busy = true → f.seqstate ≠ .decodingOk → f.outlen = 0
  /-- RXBUF has at most RX_MAX bytes (R43). -/
  receiveBound : f.rxbuf.length ≤ 128
  /-- In the hunt phase nothing is held (R113, R115). -/
  huntEmpty : f.seqstate = .awaitingReply → f.rxphase = .hunt → f.rxbuf = []
  /-- In the accumulate phase RXBUF starts with `#` and holds no CR (R43, R116). -/
  accumShape : f.seqstate = .awaitingReply → f.rxphase = .accum →
    f.rxbuf.head? = some 0x23#8 ∧ 0x0D#8 ∉ f.rxbuf
  /-- RESULT is NONE exactly while an operation is in progress and before the first one (R28). -/
  resultNone : f.result = .none ↔ f.busy = true ∨ f.seqstate = .idle
  /-- A session's address is a valid device address (R29). -/
  sessionAddress : f.sessionValid = true → IsDeviceAddress p f.saddr
  /-- An operation is in progress only in a session (R106). -/
  busySession : f.busy = true → f.sessionValid = true
  /-- SENDING belongs to SEND, QUERY, QUERY_RETRY and COMMAND (R120). -/
  sendingCmd : f.seqstate = .sending → ∃ i, IsSendingOp i ∧ f.cmd = opcode i
  /-- The receiving states belong to RECEIVE, QUERY, QUERY_RETRY and COMMAND (R120). -/
  receivingCmd : f.seqstate = .awaitingReply ∨ f.seqstate = .decodingOk ∨ f.seqstate = .decodeFailed →
    ∃ i, IsSessionOp i ∧ i ≠ .send ∧ f.cmd = opcode i
  /-- The command frame of the operation in progress encodes: it was checked at issue (R104, R113). -/
  frameReady : f.busy = true → f.cmd ≠ opcode .receive → ∃ frame, f.commandFrame = some (.ok frame)
  /-- ATTEMPTS never exceeds SMAXRETRY + 1 (R38, R121). -/
  attemptsBound : f.attempts.toNat ≤ f.smaxretry.toNat + 1
  /-- SEND and QUERY make one attempt, RECEIVE none (R38). -/
  attemptsSingle : f.busy = true →
    (f.cmd = opcode .send ∨ f.cmd = opcode .query → f.attempts = 1) ∧ (f.cmd = opcode .receive → f.attempts = 0)
  /-- Before the reply of an attempt is judged, FAILCNT counts the earlier attempts (R39). -/
  failcntRunning : f.seqstate = .sending ∨ f.seqstate = .awaitingReply ∨ f.seqstate = .decodingOk →
    if f.cmd = opcode .receive then f.failcnt = 0 else f.failcnt.toNat + 1 = f.attempts.toNat
  /-- In DECODE_FAILED, FAILCNT counts this attempt too (R39). -/
  failcntFailed : f.seqstate = .decodeFailed →
    if f.cmd = opcode .receive then f.failcnt = 1 else f.failcnt = f.attempts
  /-- FAILCNT is at most ATTEMPTS, except for RECEIVE, where it is 0 or 1 (R39). -/
  failcntBound : if f.cmd = opcode .receive then f.failcnt.toNat ≤ 1 else f.failcnt.toNat ≤ f.attempts.toNat
  /-- How QUERY_RETRY and COMMAND end when the last attempt decoded (R121, item 4). -/
  doneCounts : f.seqstate = .done → f.cmd = opcode .queryRetry ∨ f.cmd = opcode .command →
    f.failcnt.toNat + 1 = f.attempts.toNat
  /-- What EXHAUSTED says: every attempt was made and failed (R119, R121 item 4). -/
  exhausted : f.seqstate = .exhausted →
    f.failcnt = f.attempts ∧ f.attempts.toNat = f.smaxretry.toNat + 1 ∧
      (f.cmd = opcode .queryRetry ∧ f.result = .nullResponse ∨
        f.cmd = opcode .command ∧ f.result = .communicationError)
  /-- DONE goes with OK, or with COMMAND's UNEXPECTED_REPLY (R130). -/
  doneResult : f.seqstate = .done → f.result = .ok ∨ f.cmd = opcode .command ∧ f.result = .unexpectedReply
  /-- LASTFAIL is NONE or a retry-eligible error (R37). -/
  lastfailKind : f.lastfail = .none ∨ RetryEligible f.lastfail
  /-- In DECODE_FAILED, LASTFAIL names the failure (R116, R117). -/
  lastfailSet : f.seqstate = .decodeFailed → RetryEligible f.lastfail
  /-- BOOL is 1 only after COMMAND ended with OK (R27). -/
  boolMeaning : f.bool = true → f.cmd = opcode .command ∧ f.result = .ok ∧ f.seqstate = .done

/-- The invariant of the machine: the invariant of FCV. The surroundings are free. -/
def MachineInv (s : State) : Prop := FcvInv s.params s.fcv

end Sys2Proof.Machine
end

