-- ==== Sys2Proof/Certificates/Slice0/Obligations.lean ====
section
/-! DEFINITION. The statements for the provers, in the order of OBLIGATIONS.json. Free values (log entries 3 and
5) are named only through State.nextTx, State.nextRx and Config.staleByte: no statement rests on which
value they are. -/

open Sys2Proof Sys2Proof.Machine

/-! ### Encoding -/

/-- 30_encoding.md R70: the word of every operation decodes to that operation. -/
def Obligations.OperationWordsDecode : Prop :=
  decode [0x01] = .ok .configure [] ∧ decode [0x02] = .ok .hexify [] ∧ decode [0x03] = .ok .unhexify [] ∧
  decode [0x04] = .ok .checksum [] ∧ decode [0x05] = .ok .encode [] ∧ decode [0x06] = .ok .decode [] ∧
  decode [0x07] = .ok .send [] ∧ decode [0x08] = .ok .receive [] ∧ decode [0x09] = .ok .query [] ∧
  decode [0x0A] = .ok .queryRetry [] ∧ decode [0x0B] = .ok .command []

/-- 30_encoding.md R69, R70, R72: decoding an encoded operation gives it back, only encoded operations decode, and
the illegal words are 0x00 and 0x0C to 0xFF. -/
def Obligations.DecodeEncodeAgree : Prop :=
  (∀ (i : Instr) (rest : List Byte), i.wellFormed = true → decode (encode i ++ rest) = .ok i rest) ∧
  (∀ (bytes : List Byte) (i : Instr) (rest : List Byte), decode bytes = .ok i rest → bytes = encode i ++ rest) ∧
  (∀ v : Byte, decode [v] = .badOpcode v ↔ v.toNat = 0 ∨ 0x0C ≤ v.toNat)

/-- 40_codec.md R93 to R97 with 30_encoding.md R78, R79: decodeReply answers Ok(p) exactly for the reply frame from
the expected address that carries p; with cken = 1 only where its raw checksum is not 256. -/
def Obligations.DecodeReplyAcceptsExactly : Prop :=
  ∀ (f : List Byte) (e : Byte) (cken : Bool) (p : List Byte),
    decodeReply f e cken = .ok p ↔
      f = replyLayout e p cken ∧ (cken = true → ckraw (hexField e ++ p) ≠ 256)

/-- 40_codec.md R93 to R96: the failures of decodeReply, each with its information, in the order of the checks. -/
def Obligations.DecodeReplyFailsInOrder : Prop :=
  (∀ (f : List Byte) (e : Byte) (cken : Bool), (¬ ∃ body, f = 0x23#8 :: body ++ [0x0D#8]) →
    decodeReply f e cken = .err .framingError noInfo) ∧
  (∀ (body : List Byte) (e : Byte) (cken : Bool), body.length < (if cken = true then 4 else 2) →
    decodeReply (0x23#8 :: body ++ [0x0D#8]) e cken = .err .framingError noInfo) ∧
  (∀ (a0 a1 : Byte) (rest : List Byte) (e : Byte) (cken : Bool), (cken = true → 2 ≤ rest.length) →
    [a0, a1] ≠ hexField e →
    decodeReply (0x23#8 :: a0 :: a1 :: rest ++ [0x0D#8]) e cken =
      .err .addressMismatch { exp := firstTwo (hexField e), act := (a0, a1), num := 0 }) ∧
  (∀ (p : List Byte) (c0 c1 : Byte) (e : Byte), ckraw (hexField e ++ p) = 256 →
    decodeReply (0x23#8 :: hexField e ++ p ++ [c0, c1, 0x0D#8]) e true = .err .rangeError (numInfo 256)) ∧
  (∀ (p : List Byte) (c0 c1 : Byte) (e : Byte), ckraw (hexField e ++ p) ≠ 256 →
    [c0, c1] ≠ hexField (BitVec.ofNat 8 (ckraw (hexField e ++ p))) →
    decodeReply (0x23#8 :: hexField e ++ p ++ [c0, c1, 0x0D#8]) e true =
      .err .checksumError
        { exp := firstTwo (hexField (BitVec.ofNat 8 (ckraw (hexField e ++ p)))), act := (c0, c1),
          num := BitVec.ofNat 16 (ckraw (hexField e ++ p)) })

/-- 40_codec.md R92, 30_encoding.md R77: encodeCommand builds the frame of the layout, n + 6 bytes long, and fails
with RANGE_ERROR, num = 256, exactly where the raw checksum is 256. -/
def Obligations.EncodeCommandBuildsLayout : Prop :=
  ∀ (a : Byte) (p : List Byte),
    (ckraw (hexField a ++ p) ≠ 256 → encodeCommand a p = .ok (commandLayout a p)) ∧
    (ckraw (hexField a ++ p) = 256 → encodeCommand a p = .err .rangeError (numInfo 256)) ∧
    (commandLayout a p).length = p.length + 6

/-- 30_encoding.md R85: the binary form of a list of bus transactions reads back as that list. That a line feed ends
each transaction is the model's choice (log entry 14). -/
def Obligations.BinaryFormReadsBack : Prop :=
  ∀ bs : List BusAccess, parseBinary (binaryForm bs) = some bs

/-! ### Codec functions -/

/-- 40_codec.md R86, 00_scope.md R10: hexifyByte gives two digits of "0123456789ABCDEF", the high one first, and
fails above 255. -/
def Obligations.HexifyByteTwoDigits : Prop :=
  ∀ n : Nat,
    (255 < n → hexifyByte n = .err .rangeError noInfo) ∧
    (n ≤ 255 → ∃ h l : Byte, hexifyByte n = .ok [h, l] ∧
      ([0x30, 0x31, 0x32, 0x33, 0x34, 0x35, 0x36, 0x37, 0x38, 0x39, 0x41, 0x42, 0x43, 0x44, 0x45, 0x46] :
        List Byte)[n / 16]? = some h ∧
      ([0x30, 0x31, 0x32, 0x33, 0x34, 0x35, 0x36, 0x37, 0x38, 0x39, 0x41, 0x42, 0x43, 0x44, 0x45, 0x46] :
        List Byte)[n % 16]? = some l)

/-- 40_codec.md R87: unhexify accepts exactly two hex digits, in either case of letter, and gives their value;
anything else is FORMAT_ERROR. -/
def Obligations.UnhexifyAcceptsExactly : Prop :=
  let upper : List Byte :=
    [0x30, 0x31, 0x32, 0x33, 0x34, 0x35, 0x36, 0x37, 0x38, 0x39, 0x41, 0x42, 0x43, 0x44, 0x45, 0x46]
  let lower : List Byte :=
    [0x30, 0x31, 0x32, 0x33, 0x34, 0x35, 0x36, 0x37, 0x38, 0x39, 0x61, 0x62, 0x63, 0x64, 0x65, 0x66]
  let digit := fun (c : Byte) (v : Nat) => upper[v]? = some c ∨ lower[v]? = some c
  ∀ s : List Byte,
    (∀ n, unhexify s = .ok n ↔ ∃ c1 c0 h l, s = [c1, c0] ∧ digit c1 h ∧ digit c0 l ∧ n = 16 * h + l) ∧
    ((¬ ∃ n, unhexify s = .ok n) → unhexify s = .err .formatError noInfo)

/-- 40_codec.md R103: the two round trips of hexifyByte and unhexify, and where the first fails. -/
def Obligations.HexRoundTrips : Prop :=
  (∀ n : Nat, n ≤ 255 → unhexify (hexField (BitVec.ofNat 8 n)) = .ok n) ∧
  (∀ (c1 c0 : Byte) (n : Nat),
    (0x30 ≤ c1.toNat ∧ c1.toNat ≤ 0x39 ∨ 0x41 ≤ c1.toNat ∧ c1.toNat ≤ 0x46) →
    (0x30 ≤ c0.toNat ∧ c0.toNat ≤ 0x39 ∨ 0x41 ≤ c0.toNat ∧ c0.toNat ≤ 0x46) →
    unhexify [c1, c0] = .ok n → hexifyByte n = .ok [c1, c0]) ∧
  (unhexify [0x65, 0x31] = .ok 0xE1 ∧ hexifyByte 0xE1 = .ok [0x45, 0x31])

/-- 40_codec.md R88, R89: the reduction is the loop "while S > 256: S <- S - 256", and ckraw reduces the sum of the
bytes' values. -/
def Obligations.ChecksumIsTheReductionLoop : Prop :=
  (∀ s : Nat, ckreduce s = if 256 < s then ckreduce (s - 256) else s) ∧
  (∀ bytes : List Byte, ckraw bytes = ckreduce (bytes.map BitVec.toNat).sum)

/-- 40_codec.md R90: the closed form, the congruence, the three cases of ckraw, and that reducing after every byte
gives the same. -/
def Obligations.ChecksumClosedForm : Prop :=
  (∀ s : Nat, ckreduce s = (if s ≤ 256 then s else (s - 1) % 256 + 1) ∧ ckreduce s % 256 = s % 256) ∧
  (∀ bytes : List Byte,
    ckraw bytes ≤ 256 ∧
    (ckraw bytes = 0 ↔ cksumSum bytes = 0) ∧
    (ckraw bytes = 256 ↔ 0 < cksumSum bytes ∧ cksumSum bytes % 256 = 0) ∧
    (cksumSum bytes % 256 ≠ 0 → ckraw bytes = cksumSum bytes % 256) ∧
    bytes.foldl (fun acc b => ckreduce (acc + b.toNat)) 0 = ckraw bytes)

/-- 40_codec.md R103: changing any single byte changes the checksum: the digits differ, or one side is
RANGE_ERROR. -/
def Obligations.SingleByteChangeChangesChecksum : Prop :=
  ∀ (before after : List Byte) (x y : Byte), x ≠ y →
    checksum (before ++ x :: after) ≠ checksum (before ++ y :: after)

/-! ### The operations -/

/-- 41_session.md R105: CONFIGURE with a valid address opens the session; with any other it is RANGE_ERROR and the
session stays as it was. BROADCAST_ADDR, the valid address above 31, is some value of 32..255, any of them, and 255 by
default (00_scope.md R6, 30_encoding.md R75). -/
def Obligations.ConfigureResult : Prop :=
  ((∀ p : Params, 32 ≤ (broadcastAddr p).toNat) ∧ (∀ b : Byte, 32 ≤ b.toNat → ∃ p, broadcastAddr p = b) ∧
    broadcastAddr defaultParams = 255) ∧
  ∀ s : State, s.fcv.busy = false →
    (IsDeviceAddress s.params s.fcv.arg0 →
      ∃ t, exec .configure s = .next t ∧ IssuedAs s t 0x01 .done .ok 0 [] ∧ t.fcv.attempts = 0 ∧
        NoFailure t.fcv ∧ t.fcv.saddr = s.fcv.arg0 ∧ t.fcv.smaxretry = s.fcv.arg1 ∧
        t.fcv.cken = s.fcv.arg2.getLsbD 0 ∧ t.fcv.sessionValid = true) ∧
    (¬ IsDeviceAddress s.params s.fcv.arg0 →
      ∃ t, exec .configure s = .next t ∧ EndsAtIssue s t 0x01 .failed .rangeError 0 [])

/-- 40_codec.md R98: HEXIFY. -/
def Obligations.HexifyResult : Prop :=
  ∀ s : State, s.fcv.busy = false →
    let n := s.fcv.arg1.toNat * 256 + s.fcv.arg0.toNat
    (∀ digits, hexifyByte n = .ok digits →
      ∃ t, exec .hexify s = .next t ∧ EndsAtIssue s t 0x02 .done .ok n digits) ∧
    (255 < n → ∃ t, exec .hexify s = .next t ∧ EndsAtIssue s t 0x02 .failed .rangeError n [])

/-- 40_codec.md R99: UNHEXIFY. -/
def Obligations.UnhexifyResult : Prop :=
  ∀ s : State, s.fcv.busy = false →
    (64 < s.fcv.inlen.toNat →
      ∃ t, exec .unhexify s = .next t ∧ EndsAtIssue s t 0x03 .failed .rangeError 0 []) ∧
    (∀ x, OperandIs s.fcv x →
      (∀ n, unhexify x = .ok n →
        ∃ t, exec .unhexify s = .next t ∧ EndsAtIssue s t 0x03 .done .ok n []) ∧
      (unhexify x = .err .formatError noInfo →
        ∃ t, exec .unhexify s = .next t ∧ EndsAtIssue s t 0x03 .failed .formatError 0 []))

/-- 40_codec.md R100: CHECKSUM. -/
def Obligations.ChecksumResult : Prop :=
  ∀ s : State, s.fcv.busy = false →
    (64 < s.fcv.inlen.toNat →
      ∃ t, exec .checksum s = .next t ∧ EndsAtIssue s t 0x04 .failed .rangeError 0 []) ∧
    (∀ x, OperandIs s.fcv x →
      (ckraw x = 256 →
        ∃ t, exec .checksum s = .next t ∧ EndsAtIssue s t 0x04 .failed .rangeError 256 []) ∧
      (ckraw x ≠ 256 →
        ∃ t, exec .checksum s = .next t ∧
          EndsAtIssue s t 0x04 .done .ok (ckraw x) (hexField (BitVec.ofNat 8 (ckraw x)))))

/-- 40_codec.md R101: ENCODE. -/
def Obligations.EncodeResult : Prop :=
  ∀ s : State, s.fcv.busy = false →
    (64 < s.fcv.inlen.toNat →
      ∃ t, exec .encode s = .next t ∧ EndsAtIssue s t 0x05 .failed .rangeError 0 []) ∧
    (∀ p, OperandIs s.fcv p →
      (¬ IsDeviceAddress s.params s.fcv.arg0 →
        ∃ t, exec .encode s = .next t ∧ EndsAtIssue s t 0x05 .failed .rangeError 0 []) ∧
      (IsDeviceAddress s.params s.fcv.arg0 → ckraw (hexField s.fcv.arg0 ++ p) = 256 →
        ∃ t, exec .encode s = .next t ∧ EndsAtIssue s t 0x05 .failed .rangeError 256 []) ∧
      (IsDeviceAddress s.params s.fcv.arg0 → ckraw (hexField s.fcv.arg0 ++ p) ≠ 256 →
        ∃ t, exec .encode s = .next t ∧
          EndsAtIssue s t 0x05 .done .ok (ckraw (hexField s.fcv.arg0 ++ p)) (commandLayout s.fcv.arg0 p)))

/-- 40_codec.md R102: DECODE. -/
def Obligations.DecodeResult : Prop :=
  ∀ s : State, s.fcv.busy = false →
    let cken := s.fcv.arg2.getLsbD 0
    (64 < s.fcv.inlen.toNat →
      ∃ t, exec .decode s = .next t ∧ EndsAtIssue s t 0x06 .failed .rangeError 0 []) ∧
    (∀ f, OperandIs s.fcv f → ¬ IsDeviceAddress s.params s.fcv.arg0 →
      ∃ t, exec .decode s = .next t ∧ EndsAtIssue s t 0x06 .failed .rangeError 0 []) ∧
    (∀ f, OperandIs s.fcv f → IsDeviceAddress s.params s.fcv.arg0 →
      (∀ p, decodeReply f s.fcv.arg0 cken = .ok p →
        ∃ t, exec .decode s = .next t ∧
          EndsAtIssue s t 0x06 .done .ok (if cken = true then ckraw (hexField s.fcv.arg0 ++ p) else 0) p) ∧
      (∀ info, decodeReply f s.fcv.arg0 cken = .err .rangeError info →
        ∃ t, exec .decode s = .next t ∧ EndsAtIssue s t 0x06 .failed .rangeError 256 []) ∧
      (∀ c info, RetryEligible c → decodeReply f s.fcv.arg0 cken = .err c info →
        ∃ t, exec .decode s = .next t ∧ IssuedAs s t 0x06 .failed c info.num.toNat [] ∧
          SameSession s.fcv t.fcv ∧ t.fcv.attempts = 0 ∧ t.fcv.lastfail = c ∧ t.fcv.exp = info.exp ∧
          t.fcv.act = info.act))

/-- ENCODE and DECODE end with RANGE_ERROR for an address that is not valid, whatever INBUF holds, unwritten bytes
included: that the address check comes before the read of the operand is the model's reading of R101 and R102
(log entry 4). -/
def Obligations.AddressCheckPrecedesOperand : Prop :=
  ∀ s : State, s.fcv.busy = false → s.fcv.inlen.toNat ≤ 64 → ¬ IsDeviceAddress s.params s.fcv.arg0 →
    (∃ t, exec .encode s = .next t ∧ EndsAtIssue s t 0x05 .failed .rangeError 0 []) ∧
    (∃ t, exec .decode s = .next t ∧ EndsAtIssue s t 0x06 .failed .rangeError 0 [])

/-- 41_session.md R104, R107, R109, R110, R111: the issue part of SEND, QUERY, QUERY_RETRY and COMMAND. -/
def Obligations.SendingOperationsIssue : Prop :=
  ∀ (i : Instr) (s : State), IsSendingOp i → s.fcv.busy = false → s.fcv.sessionValid = true →
    (64 < s.fcv.inlen.toNat →
      ∃ t, exec i s = .next t ∧ EndsAtIssue s t (opcode i) .failed .rangeError 0 []) ∧
    (∀ p, OperandIs s.fcv p →
      (ckraw (hexField s.fcv.saddr ++ p) = 256 →
        ∃ t, exec i s = .next t ∧ EndsAtIssue s t (opcode i) .failed .rangeError 256 []) ∧
      (ckraw (hexField s.fcv.saddr ++ p) ≠ 256 →
        ∃ t, exec i s = .next t ∧
          IssuedAs s t (opcode i) .sending .none (ckraw (hexField s.fcv.saddr ++ p)) [] ∧
          SameSession s.fcv t.fcv ∧ NoFailure t.fcv ∧ t.fcv.attempts = 1))

/-- 41_session.md R108: the issue part of RECEIVE, which looks neither at INLEN nor at INBUF. -/
def Obligations.ReceiveIssue : Prop :=
  ∀ s : State, s.fcv.busy = false → s.fcv.sessionValid = true →
    ∃ t, exec .receive s = .next t ∧ EndsAtIssue s t 0x08 .awaitingReply .none 0 []

/-- 41_session.md R106: a session operation while SESSION_VALID = 0 ends with FAILED and NO_SESSION, with no
transport transaction. -/
def Obligations.NoSessionEndsAtIssue : Prop :=
  ∀ (i : Instr) (s : State), IsSessionOp i → s.fcv.busy = false → s.fcv.sessionValid = false →
    ∃ t, exec i s = .next t ∧ EndsAtIssue s t (opcode i) .failed .noSession 0 []

/-- 30_encoding.md R72: writing an illegal value to CMD ends at once with FAILED and BAD_OPCODE. -/
def Obligations.IllegalWordEndsWithBadOpcode : Prop :=
  ∀ (s : State) (v : Byte) (rest : List Event), s.fcv.busy = false → (v.toNat = 0 ∨ 0x0C ≤ v.toNat) →
    ∃ t, step (s.before (.access (.write 0x00 v)) rest) = .next t ∧
      EndsAtIssue (s.withSchedule rest) t v .failed .badOpcode 0 []

/-- 20_memory.md R53: the model refuses every host write while BUSY = 1, and so every issue. -/
def Obligations.HostWriteWhileBusyRefused : Prop :=
  ∀ (s : State) (a v : Byte) (rest : List Event) (i : Instr), s.fcv.busy = true →
    step (s.before (.access (.write a v)) rest) = .refused .hostWriteWhileBusy ∧
    exec i s = .refused .hostWriteWhileBusy

/-- 10_state.md R40: an operation whose operand covers an unwritten byte faults, once it comes to read the operand: the
session operations after their session check (41_session.md R104), ENCODE and DECODE after their address check
(40_codec.md R101, R102). That a check before the read decides first is the model's reading (log entry 4). -/
def Obligations.UnwrittenOperandFaults : Prop :=
  ∀ (s : State) (i : Instr) (k : Nat), s.fcv.busy = false → s.fcv.inlen.toNat ≤ 64 → k < s.fcv.inlen.toNat →
    s.fcv.inbuf.read k = none →
    (i = .unhexify ∨ i = .checksum ∨ (i = .encode ∨ i = .decode) ∧ IsDeviceAddress s.params s.fcv.arg0 ∨
      IsSendingOp i ∧ s.fcv.sessionValid = true) →
    exec i s = .fault .operandNoValue

/-! ### The sequencer -/

/-- 10_state.md R24: while BUSY = 0 the sequencer has no step, and BUSY = 1 exactly in the codes 1 to 4. That the
sequencer moves where nothing is scheduled is the model's choice (log entry 2). -/
def Obligations.SequencerMovesOnlyWhileBusy : Prop :=
  ∀ (s : State) (rest : List Event),
    (s.fcv.busy = true ↔ s.fcv.seqstate = .sending ∨ s.fcv.seqstate = .awaitingReply ∨
      s.fcv.seqstate = .decodingOk ∨ s.fcv.seqstate = .decodeFailed) ∧
    (s.fcv.busy = true ↔ 1 ≤ s.fcv.seqstate.code.toNat ∧ s.fcv.seqstate.code.toNat ≤ 4) ∧
    (s.fcv.busy = false → step (s.before .seq rest) = .next (s.withSchedule rest)) ∧
    (s.fcv.busy = false → s.schedule = [] → step s = .next s) ∧
    (s.schedule = [] → step s = step (s.before .seq []))

/-- 41_session.md R113 with 20_memory.md R64: the step in SENDING, by the transport's answer. -/
def Obligations.SendingStep : Prop :=
  ∀ (s : State) (rest : List Event) (p : List Byte), s.fcv.seqstate = .sending → OperandIs s.fcv p →
    ckraw (hexField s.fcv.saddr ++ p) ≠ 256 →
    ∃ t, step (s.before .seq rest) = .next t ∧ t.schedule = rest ∧ t.reads = s.reads ∧ t.params = s.params ∧
      t.line.rx = s.line.rx ∧ t.line.tx = s.line.tx.tail ∧
      (∀ n, s.nextTx = .transportFault n →
        t.line.outgoing = s.line.outgoing ++ (commandLayout s.fcv.saddr p).take n ∧
        t.fcv = { s.fcv with seqstate := .failed, result := .transportError }) ∧
      (s.nextTx = .ok →
        t.line.outgoing = s.line.outgoing ++ commandLayout s.fcv.saddr p ∧
        t.fcv = if s.fcv.cmd = 0x07 then { s.fcv with seqstate := .done, result := .ok }
          else { s.fcv with rxphase := .hunt, rxbuf := [], seqstate := .awaitingReply })

/-- 41_session.md R114 with 20_memory.md R65: a Timeout or a TransportFault ends the operation in either phase, and
consumes no byte of the incoming line. -/
def Obligations.AwaitingStopsOnTimeoutAndFault : Prop :=
  ∀ (s : State) (rest : List Event), s.fcv.seqstate = .awaitingReply →
    (s.nextRx = .timeout →
      ∃ t, step (s.before .seq rest) = .next t ∧ t.schedule = rest ∧ t.reads = s.reads ∧ t.params = s.params ∧
        t.line.sent = s.line.sent ∧ t.line.tx = s.line.tx ∧ t.line.rx = s.line.rx.tail ∧
        t.line.incoming = s.line.incoming ∧
        t.fcv = { s.fcv with seqstate := .failed, result := .timeoutError }) ∧
    (s.nextRx = .transportFault →
      ∃ t, step (s.before .seq rest) = .next t ∧ t.schedule = rest ∧ t.reads = s.reads ∧ t.params = s.params ∧
        t.line.sent = s.line.sent ∧ t.line.tx = s.line.tx ∧ t.line.rx = s.line.rx.tail ∧
        t.line.incoming = s.line.incoming ∧
        t.fcv = { s.fcv with seqstate := .failed, result := .transportError })

/-- 41_session.md R115: the hunt phase. -/
def Obligations.HuntDiscardsUpToHash : Prop :=
  ∀ (s : State) (rest : List Event) (b : Byte), s.fcv.seqstate = .awaitingReply → s.fcv.rxphase = .hunt →
    s.nextRx = .byte b →
    ∃ t, step (s.before .seq rest) = .next t ∧ t.schedule = rest ∧ t.reads = s.reads ∧ t.params = s.params ∧
      t.line.sent = s.line.sent ∧ t.line.tx = s.line.tx ∧ t.line.rx = s.line.rx.tail ∧
      t.fcv = if b = 0x23 then { s.fcv with rxbuf := [0x23], rxphase := .accum } else s.fcv

/-- 41_session.md R116: the accumulate phase, but for the terminator: overflow, and ordinary bytes, `#` among
them. -/
def Obligations.AccumulateOrOverflow : Prop :=
  ∀ (s : State) (rest : List Event) (b : Byte), s.fcv.seqstate = .awaitingReply → s.fcv.rxphase = .accum →
    s.nextRx = .byte b → (s.fcv.rxbuf.length = 128 ∨ b ≠ 0x0D) →
    ∃ t, step (s.before .seq rest) = .next t ∧ t.schedule = rest ∧ t.reads = s.reads ∧ t.params = s.params ∧
      t.line.sent = s.line.sent ∧ t.line.tx = s.line.tx ∧ t.line.rx = s.line.rx.tail ∧
      t.fcv = if s.fcv.rxbuf.length = 128 then
          { s.fcv with
            failcnt := s.fcv.failcnt + 1, lastfail := .framingError, exp := (0, 0), act := (0, 0), num := 0
            seqstate := .decodeFailed }
        else { s.fcv with rxbuf := s.fcv.rxbuf ++ [b] }

/-- 41_session.md R117: the decode at the terminator, for a candidate of at most RX_MAX bytes (10_state.md R43). -/
def Obligations.DecodeAtTerminator : Prop :=
  ∀ (s : State) (rest : List Event), s.fcv.seqstate = .awaitingReply → s.fcv.rxphase = .accum →
    s.nextRx = .byte 0x0D → s.fcv.rxbuf.length < 128 →
    ∃ t, step (s.before .seq rest) = .next t ∧ t.schedule = rest ∧ t.reads = s.reads ∧ t.params = s.params ∧
      t.line.sent = s.line.sent ∧ t.line.tx = s.line.tx ∧ t.line.rx = s.line.rx.tail ∧
      (∀ p, decodeReply (s.fcv.rxbuf ++ [0x0D]) s.fcv.saddr s.fcv.cken = .ok p →
        t.fcv = { s.fcv with
          rxbuf := s.fcv.rxbuf ++ [0x0D], outbuf := t.fcv.outbuf, outlen := BitVec.ofNat 8 p.length
          num := if s.fcv.cken = true then BitVec.ofNat 16 (ckraw (hexField s.fcv.saddr ++ p)) else s.fcv.num
          seqstate := .decodingOk } ∧
        p.length ≤ 124 ∧ HoldsBytes t.fcv.outbuf p ∧ SameFrom p.length s.fcv.outbuf t.fcv.outbuf) ∧
      (∀ info, decodeReply (s.fcv.rxbuf ++ [0x0D]) s.fcv.saddr s.fcv.cken = .err .rangeError info →
        t.fcv = { s.fcv with
          rxbuf := s.fcv.rxbuf ++ [0x0D], num := 256, seqstate := .failed, result := .rangeError }) ∧
      (∀ c info, RetryEligible c →
        decodeReply (s.fcv.rxbuf ++ [0x0D]) s.fcv.saddr s.fcv.cken = .err c info →
        t.fcv = { s.fcv with
          rxbuf := s.fcv.rxbuf ++ [0x0D], exp := info.exp, act := info.act, num := info.num, lastfail := c
          failcnt := s.fcv.failcnt + 1, seqstate := .decodeFailed })

/-- 41_session.md R118, R111: the step in DECODING_OK. RECEIVE, QUERY and QUERY_RETRY end with OK; COMMAND
interprets the payload in OUTBUF[0..OUTLEN). -/
def Obligations.DecodingOkStep : Prop :=
  ∀ (s : State) (rest : List Event) (p : List Byte), s.fcv.seqstate = .decodingOk →
    p.length = s.fcv.outlen.toNat → HoldsBytes s.fcv.outbuf p →
    step (s.before .seq rest) = .next ((s.withSchedule rest).withFcv
      (if s.fcv.cmd ≠ 0x0B then { s.fcv with seqstate := .done, result := .ok }
        else if p = [0x4F, 0x4B] then { s.fcv with bool := true, seqstate := .done, result := .ok }
        else if p = [0x45, 0x72, 0x72] then { s.fcv with bool := false, seqstate := .done, result := .ok }
        else { s.fcv with seqstate := .done, result := .unexpectedReply }))

/-- 41_session.md R119: the step in DECODE_FAILED, for an operation that reaches it. -/
def Obligations.DecodeFailedStep : Prop :=
  ∀ (s : State) (rest : List Event), s.fcv.seqstate = .decodeFailed →
    (s.fcv.cmd = 0x08 ∨ s.fcv.cmd = 0x09 ∨ s.fcv.cmd = 0x0A ∨ s.fcv.cmd = 0x0B) →
    step (s.before .seq rest) = .next ((s.withSchedule rest).withFcv
      (if s.fcv.cmd = 0x08 ∨ s.fcv.cmd = 0x09 then
          { s.fcv with seqstate := .failed, result := s.fcv.lastfail }
        else if s.fcv.attempts.toNat < s.fcv.smaxretry.toNat + 1 then
          { s.fcv with attempts := s.fcv.attempts + 1, seqstate := .sending }
        else if s.fcv.cmd = 0x0A then { s.fcv with seqstate := .exhausted, result := .nullResponse }
        else { s.fcv with seqstate := .exhausted, result := .communicationError }))

/-! ### The host bus -/

/-- 20_memory.md R49, 10_state.md R22 to R41, 30_encoding.md R76: what a host read of each address returns, the codes
of SEQSTATE and of RESULT and LASTFAIL among them, value by value. -/
def Obligations.HostReadsTheRegisterMap : Prop :=
  (∀ (s : State) (rest : List Event) (a : Byte),
    let returns := fun (v : Byte) =>
      step (s.before (.access (.read a)) rest) =
        .next { s with schedule := rest, reads := s.reads ++ [(a, v)] }
    (a = 0x00 → returns s.fcv.cmd) ∧ (a = 0x01 → returns s.fcv.statusByte) ∧
    (a = 0x02 → returns s.fcv.result.code) ∧ (a = 0x03 → returns s.fcv.seqstate.code) ∧
    (a = 0x04 → returns s.fcv.saddr) ∧ (a = 0x05 → returns (if s.fcv.cken = true then 1 else 0)) ∧
    (a = 0x06 → returns s.fcv.smaxretry) ∧ (a = 0x07 → returns s.fcv.lastfail.code) ∧
    (a = 0x08 → returns s.fcv.arg0) ∧ (a = 0x09 → returns s.fcv.arg1) ∧ (a = 0x0A → returns s.fcv.arg2) ∧
    (a = 0x0B → returns s.fcv.inlen) ∧ (a = 0x0C → returns s.fcv.outlen) ∧
    (a = 0x0D → returns (s.fcv.num.extractLsb' 0 8)) ∧ (a = 0x0E → returns (s.fcv.num.extractLsb' 8 8)) ∧
    (a = 0x0F → returns (s.fcv.attempts.extractLsb' 0 8)) ∧
    (a = 0x10 → returns (s.fcv.attempts.extractLsb' 8 8)) ∧
    (a = 0x11 → returns (s.fcv.failcnt.extractLsb' 0 8)) ∧
    (a = 0x12 → returns (s.fcv.failcnt.extractLsb' 8 8)) ∧
    (a = 0x13 → returns s.fcv.exp.1) ∧ (a = 0x14 → returns s.fcv.exp.2) ∧
    (a = 0x15 → returns s.fcv.act.1) ∧ (a = 0x16 → returns s.fcv.act.2) ∧
    (0x17 ≤ a.toNat → a.toNat ≤ 0x3F → returns 0x00) ∧
    (∀ i v, i < 64 → a.toNat = 0x40 + i → s.fcv.inbuf.read i = some v → returns v) ∧
    (∀ i v, i < s.fcv.outlen.toNat → a.toNat = 0x80 + i → s.fcv.outbuf.read i = some v → returns v)) ∧
  [SeqState.idle, .sending, .awaitingReply, .decodingOk, .decodeFailed, .done, .exhausted, .failed].map
    SeqState.code = [0, 1, 2, 3, 4, 5, 6, 7] ∧
  [ResultCode.none, .ok, .nullResponse, .rangeError, .formatError, .framingError, .addressMismatch,
    .checksumError, .timeoutError, .transportError, .unexpectedReply, .communicationError, .noSession,
    .badOpcode].map ResultCode.code =
    [0x00, 0x01, 0x02, 0x03, 0x04, 0x05, 0x06, 0x07, 0x08, 0x09, 0x0A, 0x0B, 0x0C, 0x0D]

/-- 10_state.md R25 to R27: the bits of the STATUS byte. -/
def Obligations.StatusByteFields : Prop :=
  ∀ f : Fcv,
    f.statusByte.getLsbD 0 = f.busy ∧ f.statusByte.getLsbD 1 = f.sessionValid ∧
    f.statusByte.getLsbD 2 = f.bool ∧ f.statusByte.toNat < 8

/-- 10_state.md R40, R41: a host read of a buffer byte nothing has written faults; one of an OUTBUF byte at or above
OUTLEN that was written earlier completes with some value, and changes nothing of FCV or the transport. -/
def Obligations.BufferReadsWithoutValue : Prop :=
  ∀ (s : State) (rest : List Event) (a : Byte) (i : Nat),
    (i < 64 → a.toNat = 0x40 + i → s.fcv.inbuf.read i = none →
      step (s.before (.access (.read a)) rest) = .fault (.inbufNoValue i)) ∧
    (a.toNat = 0x80 + i → s.fcv.outbuf.read i = none →
      step (s.before (.access (.read a)) rest) = .fault .outbufNoValue) ∧
    (∀ v, a.toNat = 0x80 + i → s.fcv.outbuf.read i = some v → s.fcv.outlen.toNat ≤ i →
      ∃ (w : Byte) (t : State), step (s.before (.access (.read a)) rest) = .next t ∧ t.fcv = s.fcv ∧
        t.line = s.line ∧ t.params = s.params ∧ t.schedule = rest ∧ t.reads = s.reads ++ [(a, w)])

/-- 20_memory.md R51: no read has a side effect: it changes nothing of FCV, the parameter or the transport, and
puts one value on record. -/
def Obligations.ReadsHaveNoSideEffect : Prop :=
  ∀ (s t : State) (rest : List Event) (a : Byte), step (s.before (.access (.read a)) rest) = .next t →
    t.fcv = s.fcv ∧ t.line = s.line ∧ t.params = s.params ∧ t.schedule = rest ∧
      ∃ v, t.reads = s.reads ++ [(a, v)]

/-- 20_memory.md R50: a host write while BUSY = 0 to a read-write location other than CMD stores the byte; to any
other address it changes nothing. -/
def Obligations.HostWritesStoreOrAreIgnored : Prop :=
  ∀ (s : State) (rest : List Event) (a v : Byte), s.fcv.busy = false →
    let becomes := fun (f : Fcv) =>
      step (s.before (.access (.write a v)) rest) = .next ((s.withSchedule rest).withFcv f)
    (a = 0x08 → becomes { s.fcv with arg0 := v }) ∧ (a = 0x09 → becomes { s.fcv with arg1 := v }) ∧
    (a = 0x0A → becomes { s.fcv with arg2 := v }) ∧ (a = 0x0B → becomes { s.fcv with inlen := v }) ∧
    (0x01 ≤ a.toNat ∧ a.toNat ≤ 0x07 ∨ 0x0C ≤ a.toNat ∧ a.toNat ≤ 0x3F ∨ 0x80 ≤ a.toNat →
      becomes s.fcv) ∧
    (∀ i, i < 64 → a.toNat = 0x40 + i →
      ∃ m, becomes { s.fcv with inbuf := m } ∧ m.read i = some v ∧
        ∀ j, j ≠ i → m.read j = s.fcv.inbuf.read j)

/-- 30_encoding.md R71: a host write of an operation's word to CMD runs exactly that operation, and so does the step
after withFetchWord, the model's own way of putting a word there (log entry 2). -/
def Obligations.StepRunsDecodedInstruction : Prop :=
  ∀ (s : State) (i : Instr) (v : Byte),
    (∀ (rest : List Event) (tail : List Byte), decode [v] = .ok i tail →
      step (s.before (.access (.write 0x00 v)) rest) = exec i (s.withSchedule rest)) ∧
    (∀ w : Nat, decodeTableWord 8 w = some i → step (s.withFetchWord 8 w) = exec i s)

/-- 30_encoding.md R84: `wait` lets the sequencer move while BUSY = 1, and ends with a read of STATUS. That the polls
before the last are not events of their own is the model's choice (log entry 10). -/
def Obligations.WaitPollsUntilIdle : Prop :=
  ∀ (s : State) (rest : List Event),
    (s.fcv.busy = true → ∀ t, step (s.before .seq rest) = .next t →
      step (s.before .wait rest) = .next (t.before .wait rest)) ∧
    (s.fcv.busy = false → step (s.before .wait rest) = step (s.before (.access (.read 0x01)) rest))

/-! ### Reset -/

/-- 10_state.md R45: the reset table. -/
def Obligations.ResetTable : Prop :=
  let f := State.reset.fcv
  f.seqstate = .idle ∧ f.busy = false ∧ f.cmd = 0x00 ∧ f.statusByte = 0x00 ∧ f.sessionValid = false ∧
  f.bool = false ∧ f.result.code = 0x00 ∧ f.saddr = 0x00 ∧ f.scfgByte = 0x00 ∧ f.smaxretry = 3 ∧
  f.lastfail.code = 0x00 ∧ f.arg0 = 0x00 ∧ f.arg1 = 0x00 ∧ f.arg2 = 0x00 ∧ f.inlen = 0x00 ∧
  f.outlen = 0x00 ∧ f.num = 0x0000 ∧ f.attempts = 0x0000 ∧ f.failcnt = 0x0000 ∧ f.exp = (0x00, 0x00) ∧
  f.act = (0x00, 0x00) ∧ (∀ i, f.inbuf.read i = none) ∧ (∀ i, f.outbuf.read i = none) ∧
  f.rxphase = .hunt ∧ f.rxbuf = []

/-- 70_reset_and_hazards.md R139 to R142: a reset from outside, at any time, sets all of FCV to its reset values, does not
reach the transport, and leaves of a frame write it cuts short any prefix on the line. That only a reset in SENDING cuts
a write short, and that the parameter outlives a reset, is the model's choice (log entry 12). -/
def Obligations.ResetFromAnyState : Prop :=
  ∀ (s : State) (rest : List Event) (n : Nat),
    ∃ t, step (s.before (.reset n) rest) = .next t ∧ t.fcv = State.reset.fcv ∧ t.params = s.params ∧
      t.schedule = rest ∧ t.reads = s.reads ∧ t.line.rx = s.line.rx ∧ t.line.tx = s.line.tx ∧
      (s.fcv.seqstate ≠ .sending → t.line = s.line) ∧
      (∀ frame, s.fcv.seqstate = .sending → s.fcv.commandFrame = some (.ok frame) →
        t.line.outgoing = s.line.outgoing ++ frame.take n)

/-! ### Invariants and whole-machine rules -/

/-- The invariant holds after reset (10_state.md R45). The buffers' canonical form in it is the model's own (log entry
7); that the reset state holds the default of BROADCAST_ADDR, 255 (00_scope.md R6), is the model's choice (log entry
1). -/
def Obligations.ResetMeetsInvariant : Prop := MachineInv State.reset ∧ broadcastAddr State.reset.params = 255

/-- Every step keeps the invariant, from every state that meets it, whatever the schedule and the transport's
answers. The buffers' canonical form in it is the model's own (log entry 7). -/
def Obligations.StepKeepsInvariant : Prop :=
  ∀ s t : State, MachineInv s → step s = .next t → MachineInv t

/-- While BUSY = 1 the sequencer always has its step (41_session.md section 2): in a state that meets the
invariant it neither faults nor is refused. -/
def Obligations.BusySequencerAlwaysMoves : Prop :=
  ∀ (s : State) (rest : List Event), MachineInv s → s.fcv.busy = true → Completes (step (s.before .seq rest))

/-- 41_session.md R120: the transitions of SEQSTATE by a sequencer step, in a state that meets the invariant. -/
def Obligations.SequencerTransitions : Prop :=
  ∀ (s t : State) (rest : List Event), MachineInv s → step (s.before .seq rest) = .next t →
    (s.fcv.seqstate = .sending →
      t.fcv.seqstate = .awaitingReply ∧ s.fcv.cmd ≠ 0x07 ∨ t.fcv.seqstate = .done ∧ s.fcv.cmd = 0x07 ∨
        t.fcv.seqstate = .failed) ∧
    (s.fcv.seqstate = .awaitingReply →
      t.fcv.seqstate = .awaitingReply ∨ t.fcv.seqstate = .decodingOk ∨ t.fcv.seqstate = .decodeFailed ∨
        t.fcv.seqstate = .failed) ∧
    (s.fcv.seqstate = .decodingOk → t.fcv.seqstate = .done) ∧
    (s.fcv.seqstate = .decodeFailed →
      t.fcv.seqstate = .sending ∨ t.fcv.seqstate = .exhausted ∨ t.fcv.seqstate = .failed) ∧
    (s.fcv.busy = false → t.fcv.seqstate = s.fcv.seqstate)

/-- 41_session.md R120: the transitions of SEQSTATE by the issue of an operation or of an illegal word. -/
def Obligations.IssueTransitions : Prop :=
  ∀ (s t : State) (rest : List Event) (v : Byte),
    step (s.before (.access (.write 0x00 v)) rest) = .next t →
    (s.fcv.seqstate = .idle ∨ s.fcv.seqstate = .done ∨ s.fcv.seqstate = .exhausted ∨
      s.fcv.seqstate = .failed) ∧
    (t.fcv.seqstate = .sending ∧ (∃ i, IsSendingOp i ∧ v = opcode i) ∨
      t.fcv.seqstate = .awaitingReply ∧ v = 0x08 ∨
      t.fcv.seqstate = .done ∧ (∃ i, ¬ IsSessionOp i ∧ v = opcode i) ∨
      t.fcv.seqstate = .failed)

/-- 70_reset_and_hazards.md R141, 41_session.md R120: IDLE is reached only by reset. -/
def Obligations.IdleOnlyByReset : Prop :=
  ∀ s t : State, step s = .next t → t.fcv.seqstate = .idle →
    s.fcv.seqstate = .idle ∨ ∃ n rest, s.schedule = .reset n :: rest

/-- 10_state.md R26, R29 to R31: only a CONFIGURE, or a reset, changes the session registers. -/
def Obligations.SessionChangesOnlyByConfigure : Prop :=
  ∀ s t : State, step s = .next t →
    SameSession s.fcv t.fcv ∨ (∃ n rest, s.schedule = .reset n :: rest) ∨
      (∃ rest, s.schedule = .access (.write 0x00 0x01) :: rest ∧ IsDeviceAddress s.params s.fcv.arg0 ∧
        t.fcv.sessionValid = true)

/-- 10_state.md R23, R32, R40: FCV itself writes neither the operand registers nor INBUF nor CMD: a step that
changes one of them is a host write to it, or a reset. -/
def Obligations.OperandsChangeOnlyByHost : Prop :=
  ∀ s t : State, step s = .next t → (∀ n rest, s.schedule ≠ .reset n :: rest) →
    (t.fcv.arg0 ≠ s.fcv.arg0 → ∃ v rest, s.schedule = .access (.write 0x08 v) :: rest) ∧
    (t.fcv.arg1 ≠ s.fcv.arg1 → ∃ v rest, s.schedule = .access (.write 0x09 v) :: rest) ∧
    (t.fcv.arg2 ≠ s.fcv.arg2 → ∃ v rest, s.schedule = .access (.write 0x0A v) :: rest) ∧
    (t.fcv.inlen ≠ s.fcv.inlen → ∃ v rest, s.schedule = .access (.write 0x0B v) :: rest) ∧
    (t.fcv.cmd ≠ s.fcv.cmd → ∃ v rest, s.schedule = .access (.write 0x00 v) :: rest) ∧
    (∀ i, t.fcv.inbuf.read i ≠ s.fcv.inbuf.read i →
      ∃ v rest, s.schedule = .access (.write (BitVec.ofNat 8 (0x40 + i)) v) :: rest)

/-- 20_memory.md R63, R66, R67: the transport moves only in a step of the sequencer, which takes the first read answer
in AWAITING_REPLY, or takes the first write answer and writes the command frame in SENDING; and in a reset in SENDING,
which puts its cut frame write on record and takes no answer. That a reset cuts a write in SENDING only, and how it is put on
record, is the model's choice (log entry 12). -/
def Obligations.TransportMovesOnlyBySequencerOrReset : Prop :=
  ∀ s t : State, step s = .next t →
    (t.line.rx = s.line.rx ∨
      SequencerTurn s ∧ s.fcv.seqstate = .awaitingReply ∧ t.line.rx = s.line.rx.tail) ∧
    (t.line.tx = s.line.tx ∨ SequencerTurn s ∧ s.fcv.seqstate = .sending ∧ t.line.tx = s.line.tx.tail) ∧
    (t.line.sent = s.line.sent ∨
      s.fcv.seqstate = .sending ∧ ∃ frame, s.fcv.commandFrame = some (.ok frame) ∧
        (SequencerTurn s ∧ t.line.sent = s.line.sent ++ [txRecord frame s.nextTx] ∨
          ∃ n rest, s.schedule = .reset n :: rest ∧ t.line.sent = s.line.sent ++ [.cutByReset frame n]))

/-- Equal buffers are equal data: two buffers in canonical form that read alike are one list (the model's canonical
form, log entry 7). -/
def Obligations.CanonicalBuffersAreEqual : Prop :=
  ∀ (size : Nat) (m m' : Memory), m.wf size → m'.wf size → SameBytes m m' → m = m'

/-! ### Runs of an operation -/

/-- 41_session.md R107: SEND, issued in a session, ends after one sequencer step: DONE where the transport takes the
frame, FAILED with TRANSPORT_ERROR where it faults; it never reads the transport. -/
def Obligations.SendEndsAfterOneWrite : Prop :=
  ∀ (s : State) (p : List Byte), s.fcv.busy = false → s.fcv.sessionValid = true → s.schedule = [] →
    OperandIs s.fcv p → ckraw (hexField s.fcv.saddr ++ p) ≠ 256 →
    ∃ t0 t, exec .send s = .next t0 ∧ runSteps 1 t0 = .next t ∧ t.line.rx = s.line.rx ∧
      t.fcv.attempts = 1 ∧ t.fcv.failcnt = 0 ∧ SameSession s.fcv t.fcv ∧ SameOperands s.fcv t.fcv ∧
      (s.nextTx = .ok → t.fcv.seqstate = .done ∧ t.fcv.result = .ok ∧
        t.line.outgoing = s.line.outgoing ++ commandLayout s.fcv.saddr p) ∧
      (∀ n, s.nextTx = .transportFault n → t.fcv.seqstate = .failed ∧ t.fcv.result = .transportError ∧
        t.line.outgoing = s.line.outgoing ++ (commandLayout s.fcv.saddr p).take n)

/-- 41_session.md R108, R115 to R118: RECEIVE discards line noise up to the first `#`, takes the reply frame that
follows, and ends with its payload in OUTBUF; what comes after the frame stays in the transport. -/
def Obligations.ReceiveDeliversReply : Prop :=
  ∀ (s : State) (noise p : List Byte) (later : List RxAnswer),
    s.fcv.busy = false → s.fcv.sessionValid = true → s.schedule = [] →
    0x23#8 ∉ noise → 0x0D#8 ∉ p → (replyLayout s.fcv.saddr p s.fcv.cken).length ≤ 128 →
    (s.fcv.cken = true → ckraw (hexField s.fcv.saddr ++ p) ≠ 256) →
    s.line.rx = answers (noise ++ replyLayout s.fcv.saddr p s.fcv.cken) ++ later →
    ∃ t0 t, exec .receive s = .next t0 ∧
      runSteps (noise.length + (replyLayout s.fcv.saddr p s.fcv.cken).length + 1) t0 = .next t ∧
      t.fcv.seqstate = .done ∧ t.fcv.result = .ok ∧ t.fcv.outlen.toNat = p.length ∧
      HoldsBytes t.fcv.outbuf p ∧ t.fcv.attempts = 0 ∧ t.fcv.failcnt = 0 ∧ NoFailure t.fcv ∧
      t.line.rx = later ∧ t.line.sent = s.line.sent

/-- 41_session.md R109 to R111, R117, R118: QUERY, QUERY_RETRY and COMMAND whose first reply decodes end DONE, with one
frame write, the payload in OUTBUF, and COMMAND's interpretation of it in BOOL and RESULT. -/
def Obligations.FirstReplyEndsRequest : Prop :=
  ∀ (i : Instr) (s : State) (p q noise : List Byte) (later : List RxAnswer) (laterTx : List TxAnswer),
    (i = .query ∨ i = .queryRetry ∨ i = .command) → s.fcv.busy = false → s.fcv.sessionValid = true →
    s.schedule = [] → OperandIs s.fcv p → ckraw (hexField s.fcv.saddr ++ p) ≠ 256 →
    0x23#8 ∉ noise → 0x0D#8 ∉ q → (replyLayout s.fcv.saddr q s.fcv.cken).length ≤ 128 →
    (s.fcv.cken = true → ckraw (hexField s.fcv.saddr ++ q) ≠ 256) →
    s.line.rx = answers (noise ++ replyLayout s.fcv.saddr q s.fcv.cken) ++ later →
    s.line.tx = TxAnswer.ok :: laterTx →
    ∃ t0 t, exec i s = .next t0 ∧
      runSteps (noise.length + (replyLayout s.fcv.saddr q s.fcv.cken).length + 2) t0 = .next t ∧
      t.fcv.seqstate = .done ∧
      t.fcv.result =
        (if i = .command ∧ q ≠ [0x4F, 0x4B] ∧ q ≠ [0x45, 0x72, 0x72] then .unexpectedReply else .ok) ∧
      (t.fcv.bool = true ↔ i = .command ∧ q = [0x4F, 0x4B]) ∧
      t.fcv.attempts = 1 ∧ t.fcv.failcnt = 0 ∧ NoFailure t.fcv ∧ t.fcv.outlen.toNat = q.length ∧
      HoldsBytes t.fcv.outbuf q ∧ SameFrom q.length s.fcv.outbuf t.fcv.outbuf ∧ SameSession s.fcv t.fcv ∧
      SameOperands s.fcv t.fcv ∧ t.line.rx = later ∧ t.line.tx = laterTx ∧
      t.line.sent = s.line.sent ++ [.whole (commandLayout s.fcv.saddr p)]

/-- 41_session.md R108, R109, R115, R119: RECEIVE and QUERY whose reply, line noise before it or not, fails to decode end
FAILED with the failure's code, its information, and no retry. RECEIVE asks nothing of the transport's answers to
writes and takes none. -/
def Obligations.FailingReplyEndsWithoutRetry : Prop :=
  ∀ (i : Instr) (s : State) (p noise c : List Byte) (e : ResultCode) (info : ErrInfo) (later : List RxAnswer),
    (i = .receive ∨ i = .query ∧ OperandIs s.fcv p ∧ ckraw (hexField s.fcv.saddr ++ p) ≠ 256 ∧ s.nextTx = .ok) →
    s.fcv.busy = false → s.fcv.sessionValid = true → s.schedule = [] → 0x23#8 ∉ noise → CandidateFrame c →
    RetryEligible e → decodeReply c s.fcv.saddr s.fcv.cken = .err e info →
    s.line.rx = answers (noise ++ c) ++ later →
    ∃ t0 t, exec i s = .next t0 ∧
      runSteps (noise.length + c.length + (if i = .receive then 1 else 2)) t0 = .next t ∧
      t.fcv.seqstate = .failed ∧ t.fcv.result = e ∧ t.fcv.lastfail = e ∧ t.fcv.exp = info.exp ∧
      t.fcv.act = info.act ∧ t.fcv.num = info.num ∧ t.fcv.failcnt = 1 ∧
      t.fcv.attempts = (if i = .receive then 0 else 1) ∧ t.fcv.outlen = 0 ∧
      SameBytes s.fcv.outbuf t.fcv.outbuf ∧ SameSession s.fcv t.fcv ∧ SameOperands s.fcv t.fcv ∧
      t.line.rx = later ∧ t.line.tx = (if i = .receive then s.line.tx else s.line.tx.tail) ∧
      t.line.sent = s.line.sent ++ (if i = .receive then [] else [.whole (commandLayout s.fcv.saddr p)])

/-- 41_session.md R110, R111, R119, R121: QUERY_RETRY and COMMAND with every reply failing to decode and no Timeout or
TransportFault make exactly SMAXRETRY + 1 frame writes and end EXHAUSTED. -/
def Obligations.RetriesExhaustExactly : Prop :=
  ∀ (i : Instr) (s : State) (p : List Byte) (frames : List (List Byte)) (later : List RxAnswer)
    (laterTx : List TxAnswer),
    (i = .queryRetry ∨ i = .command) → s.fcv.busy = false → s.fcv.sessionValid = true → s.schedule = [] →
    OperandIs s.fcv p → ckraw (hexField s.fcv.saddr ++ p) ≠ 256 →
    frames.length = s.fcv.smaxretry.toNat + 1 → (∀ c ∈ frames, FailingFrame s.fcv c) →
    s.line.rx = answers frames.flatten ++ later →
    s.line.tx = List.replicate frames.length TxAnswer.ok ++ laterTx →
    ∃ t0 t, exec i s = .next t0 ∧ runSteps (frames.flatten.length + 2 * frames.length) t0 = .next t ∧
      t.fcv.seqstate = .exhausted ∧
      t.fcv.result = (if i = .queryRetry then .nullResponse else .communicationError) ∧
      t.fcv.attempts.toNat = s.fcv.smaxretry.toNat + 1 ∧ t.fcv.failcnt.toNat = s.fcv.smaxretry.toNat + 1 ∧
      t.fcv.outlen = 0 ∧ t.line.rx = later ∧
      t.line.sent = s.line.sent ++ List.replicate frames.length (.whole (commandLayout s.fcv.saddr p))

/-- 41_session.md R110, R111, R117 to R119: QUERY_RETRY and COMMAND with fewer failing replies than the bound allows and
then a good one end DONE, ATTEMPTS one more than FAILCNT, with the good reply's payload, and COMMAND's
interpretation of it in BOOL and RESULT. -/
def Obligations.RetriesRecover : Prop :=
  ∀ (i : Instr) (s : State) (p q : List Byte) (frames : List (List Byte)) (later : List RxAnswer)
    (laterTx : List TxAnswer),
    (i = .queryRetry ∨ i = .command) → s.fcv.busy = false → s.fcv.sessionValid = true → s.schedule = [] →
    OperandIs s.fcv p → ckraw (hexField s.fcv.saddr ++ p) ≠ 256 → frames.length ≤ s.fcv.smaxretry.toNat →
    (∀ c ∈ frames, FailingFrame s.fcv c) → 0x0D#8 ∉ q →
    (replyLayout s.fcv.saddr q s.fcv.cken).length ≤ 128 →
    (s.fcv.cken = true → ckraw (hexField s.fcv.saddr ++ q) ≠ 256) →
    s.line.rx = answers (frames.flatten ++ replyLayout s.fcv.saddr q s.fcv.cken) ++ later →
    s.line.tx = List.replicate (frames.length + 1) TxAnswer.ok ++ laterTx →
    ∃ t0 t n, exec i s = .next t0 ∧ runSteps n t0 = .next t ∧
      t.fcv.seqstate = .done ∧
      t.fcv.result =
        (if i = .command ∧ q ≠ [0x4F, 0x4B] ∧ q ≠ [0x45, 0x72, 0x72] then .unexpectedReply else .ok) ∧
      (t.fcv.bool = true ↔ i = .command ∧ q = [0x4F, 0x4B]) ∧ t.fcv.failcnt.toNat = frames.length ∧
      t.fcv.attempts.toNat = frames.length + 1 ∧ t.fcv.outlen.toNat = q.length ∧
      HoldsBytes t.fcv.outbuf q ∧ t.line.rx = later ∧
      t.line.sent =
        s.line.sent ++ List.replicate (frames.length + 1) (.whole (commandLayout s.fcv.saddr p))

/-- 41_session.md R121 item 3: if the first frame write faults, QUERY_RETRY and COMMAND end with FAILED and
TRANSPORT_ERROR after exactly one frame write, with no retry. -/
def Obligations.FirstWriteFaultEndsWithoutRetry : Prop :=
  ∀ (i : Instr) (s : State) (p : List Byte) (n : Nat),
    (i = .queryRetry ∨ i = .command) → s.fcv.busy = false → s.fcv.sessionValid = true → s.schedule = [] →
    OperandIs s.fcv p → ckraw (hexField s.fcv.saddr ++ p) ≠ 256 → s.nextTx = .transportFault n →
    ∃ t0 t, exec i s = .next t0 ∧ runSteps 1 t0 = .next t ∧ t.fcv.seqstate = .failed ∧
      t.fcv.result = .transportError ∧ t.fcv.attempts = 1 ∧ t.fcv.failcnt = 0 ∧ t.line.rx = s.line.rx ∧
      t.line.sent = s.line.sent ++ [.faulted (commandLayout s.fcv.saddr p) n]

/-- 41_session.md R122, 70_reset_and_hazards.md R153: under the fairness assumption of R153 every operation in progress
ends, after finitely many of the transport's answers and a number of steps that they bound, whatever the answers
to its frame writes. And where the answers are bytes and then a Timeout or a TransportFault, it ends by then. -/
def Obligations.OperationEndsOnFairTransport : Prop :=
  (∀ (s : State) (x : Nat → RxAnswer), MachineInv s → s.fcv.busy = true → s.schedule = [] → FairAnswers x →
    ∃ k, ∀ later : List RxAnswer, ∃ n t, n ≤ 3 * k + 3 ∧
      runSteps n (s.hearing (firstAnswers x k ++ later)) = .next t ∧ t.fcv.busy = false ∧ MachineInv t) ∧
  (∀ (s : State) (bytes : List Byte) (a : RxAnswer) (later : List RxAnswer),
    MachineInv s → s.fcv.busy = true → s.schedule = [] → (a = .timeout ∨ a = .transportFault) →
    s.line.rx = answers bytes ++ a :: later →
    ∃ n t, n ≤ 3 * bytes.length + 3 ∧ runSteps n s = .next t ∧ t.fcv.busy = false ∧ MachineInv t)
end

