-- ==== Sys2Proof/Laws/State.lean ====
section
/-! SUPPORT. One lemma per field per update of the state records, each true by rfl, so that no later proof
unfolds a record update. -/

namespace Sys2Proof.Machine

variable (f : Fcv) (s : State)

/-! ### putOut -/

@[simp] theorem Fcv.putOut_seqstate (r : List Byte) : (f.putOut r).seqstate = f.seqstate := rfl
@[simp] theorem Fcv.putOut_cmd (r : List Byte) : (f.putOut r).cmd = f.cmd := rfl
@[simp] theorem Fcv.putOut_sessionValid (r : List Byte) : (f.putOut r).sessionValid = f.sessionValid := rfl
@[simp] theorem Fcv.putOut_bool (r : List Byte) : (f.putOut r).bool = f.bool := rfl
@[simp] theorem Fcv.putOut_result (r : List Byte) : (f.putOut r).result = f.result := rfl
@[simp] theorem Fcv.putOut_saddr (r : List Byte) : (f.putOut r).saddr = f.saddr := rfl
@[simp] theorem Fcv.putOut_cken (r : List Byte) : (f.putOut r).cken = f.cken := rfl
@[simp] theorem Fcv.putOut_smaxretry (r : List Byte) : (f.putOut r).smaxretry = f.smaxretry := rfl
@[simp] theorem Fcv.putOut_arg0 (r : List Byte) : (f.putOut r).arg0 = f.arg0 := rfl
@[simp] theorem Fcv.putOut_arg1 (r : List Byte) : (f.putOut r).arg1 = f.arg1 := rfl
@[simp] theorem Fcv.putOut_arg2 (r : List Byte) : (f.putOut r).arg2 = f.arg2 := rfl
@[simp] theorem Fcv.putOut_inlen (r : List Byte) : (f.putOut r).inlen = f.inlen := rfl
@[simp] theorem Fcv.putOut_outlen (r : List Byte) : (f.putOut r).outlen = BitVec.ofNat 8 r.length := rfl
@[simp] theorem Fcv.putOut_num (r : List Byte) : (f.putOut r).num = f.num := rfl
@[simp] theorem Fcv.putOut_attempts (r : List Byte) : (f.putOut r).attempts = f.attempts := rfl
@[simp] theorem Fcv.putOut_failcnt (r : List Byte) : (f.putOut r).failcnt = f.failcnt := rfl
@[simp] theorem Fcv.putOut_exp (r : List Byte) : (f.putOut r).exp = f.exp := rfl
@[simp] theorem Fcv.putOut_act (r : List Byte) : (f.putOut r).act = f.act := rfl
@[simp] theorem Fcv.putOut_lastfail (r : List Byte) : (f.putOut r).lastfail = f.lastfail := rfl
@[simp] theorem Fcv.putOut_inbuf (r : List Byte) : (f.putOut r).inbuf = f.inbuf := rfl
@[simp] theorem Fcv.putOut_outbuf (r : List Byte) : (f.putOut r).outbuf = f.outbuf.writeFrom 0 r := rfl
@[simp] theorem Fcv.putOut_rxphase (r : List Byte) : (f.putOut r).rxphase = f.rxphase := rfl
@[simp] theorem Fcv.putOut_rxbuf (r : List Byte) : (f.putOut r).rxbuf = f.rxbuf := rfl

/-! ### setNum -/

@[simp] theorem Fcv.setNum_seqstate (n : Nat) : (f.setNum n).seqstate = f.seqstate := rfl
@[simp] theorem Fcv.setNum_cmd (n : Nat) : (f.setNum n).cmd = f.cmd := rfl
@[simp] theorem Fcv.setNum_sessionValid (n : Nat) : (f.setNum n).sessionValid = f.sessionValid := rfl
@[simp] theorem Fcv.setNum_bool (n : Nat) : (f.setNum n).bool = f.bool := rfl
@[simp] theorem Fcv.setNum_result (n : Nat) : (f.setNum n).result = f.result := rfl
@[simp] theorem Fcv.setNum_saddr (n : Nat) : (f.setNum n).saddr = f.saddr := rfl
@[simp] theorem Fcv.setNum_cken (n : Nat) : (f.setNum n).cken = f.cken := rfl
@[simp] theorem Fcv.setNum_smaxretry (n : Nat) : (f.setNum n).smaxretry = f.smaxretry := rfl
@[simp] theorem Fcv.setNum_arg0 (n : Nat) : (f.setNum n).arg0 = f.arg0 := rfl
@[simp] theorem Fcv.setNum_arg1 (n : Nat) : (f.setNum n).arg1 = f.arg1 := rfl
@[simp] theorem Fcv.setNum_arg2 (n : Nat) : (f.setNum n).arg2 = f.arg2 := rfl
@[simp] theorem Fcv.setNum_inlen (n : Nat) : (f.setNum n).inlen = f.inlen := rfl
@[simp] theorem Fcv.setNum_outlen (n : Nat) : (f.setNum n).outlen = f.outlen := rfl
@[simp] theorem Fcv.setNum_num (n : Nat) : (f.setNum n).num = BitVec.ofNat 16 n := rfl
@[simp] theorem Fcv.setNum_attempts (n : Nat) : (f.setNum n).attempts = f.attempts := rfl
@[simp] theorem Fcv.setNum_failcnt (n : Nat) : (f.setNum n).failcnt = f.failcnt := rfl
@[simp] theorem Fcv.setNum_exp (n : Nat) : (f.setNum n).exp = f.exp := rfl
@[simp] theorem Fcv.setNum_act (n : Nat) : (f.setNum n).act = f.act := rfl
@[simp] theorem Fcv.setNum_lastfail (n : Nat) : (f.setNum n).lastfail = f.lastfail := rfl
@[simp] theorem Fcv.setNum_inbuf (n : Nat) : (f.setNum n).inbuf = f.inbuf := rfl
@[simp] theorem Fcv.setNum_outbuf (n : Nat) : (f.setNum n).outbuf = f.outbuf := rfl
@[simp] theorem Fcv.setNum_rxphase (n : Nat) : (f.setNum n).rxphase = f.rxphase := rfl
@[simp] theorem Fcv.setNum_rxbuf (n : Nat) : (f.setNum n).rxbuf = f.rxbuf := rfl

/-! ### finish -/

@[simp] theorem Fcv.finish_seqstate (st : SeqState) (r : ResultCode) : (f.finish st r).seqstate = st := rfl
@[simp] theorem Fcv.finish_cmd (st : SeqState) (r : ResultCode) : (f.finish st r).cmd = f.cmd := rfl
@[simp] theorem Fcv.finish_sessionValid (st : SeqState) (r : ResultCode) : (f.finish st r).sessionValid = f.sessionValid := rfl
@[simp] theorem Fcv.finish_bool (st : SeqState) (r : ResultCode) : (f.finish st r).bool = f.bool := rfl
@[simp] theorem Fcv.finish_result (st : SeqState) (r : ResultCode) : (f.finish st r).result = r := rfl
@[simp] theorem Fcv.finish_saddr (st : SeqState) (r : ResultCode) : (f.finish st r).saddr = f.saddr := rfl
@[simp] theorem Fcv.finish_cken (st : SeqState) (r : ResultCode) : (f.finish st r).cken = f.cken := rfl
@[simp] theorem Fcv.finish_smaxretry (st : SeqState) (r : ResultCode) : (f.finish st r).smaxretry = f.smaxretry := rfl
@[simp] theorem Fcv.finish_arg0 (st : SeqState) (r : ResultCode) : (f.finish st r).arg0 = f.arg0 := rfl
@[simp] theorem Fcv.finish_arg1 (st : SeqState) (r : ResultCode) : (f.finish st r).arg1 = f.arg1 := rfl
@[simp] theorem Fcv.finish_arg2 (st : SeqState) (r : ResultCode) : (f.finish st r).arg2 = f.arg2 := rfl
@[simp] theorem Fcv.finish_inlen (st : SeqState) (r : ResultCode) : (f.finish st r).inlen = f.inlen := rfl
@[simp] theorem Fcv.finish_outlen (st : SeqState) (r : ResultCode) : (f.finish st r).outlen = f.outlen := rfl
@[simp] theorem Fcv.finish_num (st : SeqState) (r : ResultCode) : (f.finish st r).num = f.num := rfl
@[simp] theorem Fcv.finish_attempts (st : SeqState) (r : ResultCode) : (f.finish st r).attempts = f.attempts := rfl
@[simp] theorem Fcv.finish_failcnt (st : SeqState) (r : ResultCode) : (f.finish st r).failcnt = f.failcnt := rfl
@[simp] theorem Fcv.finish_exp (st : SeqState) (r : ResultCode) : (f.finish st r).exp = f.exp := rfl
@[simp] theorem Fcv.finish_act (st : SeqState) (r : ResultCode) : (f.finish st r).act = f.act := rfl
@[simp] theorem Fcv.finish_lastfail (st : SeqState) (r : ResultCode) : (f.finish st r).lastfail = f.lastfail := rfl
@[simp] theorem Fcv.finish_inbuf (st : SeqState) (r : ResultCode) : (f.finish st r).inbuf = f.inbuf := rfl
@[simp] theorem Fcv.finish_outbuf (st : SeqState) (r : ResultCode) : (f.finish st r).outbuf = f.outbuf := rfl
@[simp] theorem Fcv.finish_rxphase (st : SeqState) (r : ResultCode) : (f.finish st r).rxphase = f.rxphase := rfl
@[simp] theorem Fcv.finish_rxbuf (st : SeqState) (r : ResultCode) : (f.finish st r).rxbuf = f.rxbuf := rfl

/-! ### storeInfo -/

@[simp] theorem Fcv.storeInfo_seqstate (i : ErrInfo) : (f.storeInfo i).seqstate = f.seqstate := rfl
@[simp] theorem Fcv.storeInfo_cmd (i : ErrInfo) : (f.storeInfo i).cmd = f.cmd := rfl
@[simp] theorem Fcv.storeInfo_sessionValid (i : ErrInfo) : (f.storeInfo i).sessionValid = f.sessionValid := rfl
@[simp] theorem Fcv.storeInfo_bool (i : ErrInfo) : (f.storeInfo i).bool = f.bool := rfl
@[simp] theorem Fcv.storeInfo_result (i : ErrInfo) : (f.storeInfo i).result = f.result := rfl
@[simp] theorem Fcv.storeInfo_saddr (i : ErrInfo) : (f.storeInfo i).saddr = f.saddr := rfl
@[simp] theorem Fcv.storeInfo_cken (i : ErrInfo) : (f.storeInfo i).cken = f.cken := rfl
@[simp] theorem Fcv.storeInfo_smaxretry (i : ErrInfo) : (f.storeInfo i).smaxretry = f.smaxretry := rfl
@[simp] theorem Fcv.storeInfo_arg0 (i : ErrInfo) : (f.storeInfo i).arg0 = f.arg0 := rfl
@[simp] theorem Fcv.storeInfo_arg1 (i : ErrInfo) : (f.storeInfo i).arg1 = f.arg1 := rfl
@[simp] theorem Fcv.storeInfo_arg2 (i : ErrInfo) : (f.storeInfo i).arg2 = f.arg2 := rfl
@[simp] theorem Fcv.storeInfo_inlen (i : ErrInfo) : (f.storeInfo i).inlen = f.inlen := rfl
@[simp] theorem Fcv.storeInfo_outlen (i : ErrInfo) : (f.storeInfo i).outlen = f.outlen := rfl
@[simp] theorem Fcv.storeInfo_num (i : ErrInfo) : (f.storeInfo i).num = i.num := rfl
@[simp] theorem Fcv.storeInfo_attempts (i : ErrInfo) : (f.storeInfo i).attempts = f.attempts := rfl
@[simp] theorem Fcv.storeInfo_failcnt (i : ErrInfo) : (f.storeInfo i).failcnt = f.failcnt := rfl
@[simp] theorem Fcv.storeInfo_exp (i : ErrInfo) : (f.storeInfo i).exp = i.exp := rfl
@[simp] theorem Fcv.storeInfo_act (i : ErrInfo) : (f.storeInfo i).act = i.act := rfl
@[simp] theorem Fcv.storeInfo_lastfail (i : ErrInfo) : (f.storeInfo i).lastfail = f.lastfail := rfl
@[simp] theorem Fcv.storeInfo_inbuf (i : ErrInfo) : (f.storeInfo i).inbuf = f.inbuf := rfl
@[simp] theorem Fcv.storeInfo_outbuf (i : ErrInfo) : (f.storeInfo i).outbuf = f.outbuf := rfl
@[simp] theorem Fcv.storeInfo_rxphase (i : ErrInfo) : (f.storeInfo i).rxphase = f.rxphase := rfl
@[simp] theorem Fcv.storeInfo_rxbuf (i : ErrInfo) : (f.storeInfo i).rxbuf = f.rxbuf := rfl

/-! ### raise_none -/

@[simp] theorem Fcv.raise_none_seqstate (e : ResultCode) : (f.raise e none).seqstate = .failed := rfl
@[simp] theorem Fcv.raise_none_cmd (e : ResultCode) : (f.raise e none).cmd = f.cmd := rfl
@[simp] theorem Fcv.raise_none_sessionValid (e : ResultCode) : (f.raise e none).sessionValid = f.sessionValid := rfl
@[simp] theorem Fcv.raise_none_bool (e : ResultCode) : (f.raise e none).bool = f.bool := rfl
@[simp] theorem Fcv.raise_none_result (e : ResultCode) : (f.raise e none).result = e := rfl
@[simp] theorem Fcv.raise_none_saddr (e : ResultCode) : (f.raise e none).saddr = f.saddr := rfl
@[simp] theorem Fcv.raise_none_cken (e : ResultCode) : (f.raise e none).cken = f.cken := rfl
@[simp] theorem Fcv.raise_none_smaxretry (e : ResultCode) : (f.raise e none).smaxretry = f.smaxretry := rfl
@[simp] theorem Fcv.raise_none_arg0 (e : ResultCode) : (f.raise e none).arg0 = f.arg0 := rfl
@[simp] theorem Fcv.raise_none_arg1 (e : ResultCode) : (f.raise e none).arg1 = f.arg1 := rfl
@[simp] theorem Fcv.raise_none_arg2 (e : ResultCode) : (f.raise e none).arg2 = f.arg2 := rfl
@[simp] theorem Fcv.raise_none_inlen (e : ResultCode) : (f.raise e none).inlen = f.inlen := rfl
@[simp] theorem Fcv.raise_none_outlen (e : ResultCode) : (f.raise e none).outlen = f.outlen := rfl
@[simp] theorem Fcv.raise_none_num (e : ResultCode) : (f.raise e none).num = f.num := rfl
@[simp] theorem Fcv.raise_none_attempts (e : ResultCode) : (f.raise e none).attempts = f.attempts := rfl
@[simp] theorem Fcv.raise_none_failcnt (e : ResultCode) : (f.raise e none).failcnt = f.failcnt := rfl
@[simp] theorem Fcv.raise_none_exp (e : ResultCode) : (f.raise e none).exp = f.exp := rfl
@[simp] theorem Fcv.raise_none_act (e : ResultCode) : (f.raise e none).act = f.act := rfl
@[simp] theorem Fcv.raise_none_lastfail (e : ResultCode) : (f.raise e none).lastfail = f.lastfail := rfl
@[simp] theorem Fcv.raise_none_inbuf (e : ResultCode) : (f.raise e none).inbuf = f.inbuf := rfl
@[simp] theorem Fcv.raise_none_outbuf (e : ResultCode) : (f.raise e none).outbuf = f.outbuf := rfl
@[simp] theorem Fcv.raise_none_rxphase (e : ResultCode) : (f.raise e none).rxphase = f.rxphase := rfl
@[simp] theorem Fcv.raise_none_rxbuf (e : ResultCode) : (f.raise e none).rxbuf = f.rxbuf := rfl

/-! ### issued -/

@[simp] theorem Fcv.issued_seqstate (v : Byte) : (f.issued v).seqstate = f.seqstate := rfl
@[simp] theorem Fcv.issued_cmd (v : Byte) : (f.issued v).cmd = v := rfl
@[simp] theorem Fcv.issued_sessionValid (v : Byte) : (f.issued v).sessionValid = f.sessionValid := rfl
@[simp] theorem Fcv.issued_bool (v : Byte) : (f.issued v).bool = false := rfl
@[simp] theorem Fcv.issued_result (v : Byte) : (f.issued v).result = .none := rfl
@[simp] theorem Fcv.issued_saddr (v : Byte) : (f.issued v).saddr = f.saddr := rfl
@[simp] theorem Fcv.issued_cken (v : Byte) : (f.issued v).cken = f.cken := rfl
@[simp] theorem Fcv.issued_smaxretry (v : Byte) : (f.issued v).smaxretry = f.smaxretry := rfl
@[simp] theorem Fcv.issued_arg0 (v : Byte) : (f.issued v).arg0 = f.arg0 := rfl
@[simp] theorem Fcv.issued_arg1 (v : Byte) : (f.issued v).arg1 = f.arg1 := rfl
@[simp] theorem Fcv.issued_arg2 (v : Byte) : (f.issued v).arg2 = f.arg2 := rfl
@[simp] theorem Fcv.issued_inlen (v : Byte) : (f.issued v).inlen = f.inlen := rfl
@[simp] theorem Fcv.issued_outlen (v : Byte) : (f.issued v).outlen = 0 := rfl
@[simp] theorem Fcv.issued_num (v : Byte) : (f.issued v).num = 0 := rfl
@[simp] theorem Fcv.issued_attempts (v : Byte) : (f.issued v).attempts = 0 := rfl
@[simp] theorem Fcv.issued_failcnt (v : Byte) : (f.issued v).failcnt = 0 := rfl
@[simp] theorem Fcv.issued_exp (v : Byte) : (f.issued v).exp = (0, 0) := rfl
@[simp] theorem Fcv.issued_act (v : Byte) : (f.issued v).act = (0, 0) := rfl
@[simp] theorem Fcv.issued_lastfail (v : Byte) : (f.issued v).lastfail = .none := rfl
@[simp] theorem Fcv.issued_inbuf (v : Byte) : (f.issued v).inbuf = f.inbuf := rfl
@[simp] theorem Fcv.issued_outbuf (v : Byte) : (f.issued v).outbuf = f.outbuf := rfl
@[simp] theorem Fcv.issued_rxphase (v : Byte) : (f.issued v).rxphase = .hunt := rfl
@[simp] theorem Fcv.issued_rxbuf (v : Byte) : (f.issued v).rxbuf = [] := rfl

/-! ### startSending -/

@[simp] theorem Fcv.startSending_seqstate : (f.startSending).seqstate = .sending := rfl
@[simp] theorem Fcv.startSending_cmd : (f.startSending).cmd = f.cmd := rfl
@[simp] theorem Fcv.startSending_sessionValid : (f.startSending).sessionValid = f.sessionValid := rfl
@[simp] theorem Fcv.startSending_bool : (f.startSending).bool = f.bool := rfl
@[simp] theorem Fcv.startSending_result : (f.startSending).result = f.result := rfl
@[simp] theorem Fcv.startSending_saddr : (f.startSending).saddr = f.saddr := rfl
@[simp] theorem Fcv.startSending_cken : (f.startSending).cken = f.cken := rfl
@[simp] theorem Fcv.startSending_smaxretry : (f.startSending).smaxretry = f.smaxretry := rfl
@[simp] theorem Fcv.startSending_arg0 : (f.startSending).arg0 = f.arg0 := rfl
@[simp] theorem Fcv.startSending_arg1 : (f.startSending).arg1 = f.arg1 := rfl
@[simp] theorem Fcv.startSending_arg2 : (f.startSending).arg2 = f.arg2 := rfl
@[simp] theorem Fcv.startSending_inlen : (f.startSending).inlen = f.inlen := rfl
@[simp] theorem Fcv.startSending_outlen : (f.startSending).outlen = f.outlen := rfl
@[simp] theorem Fcv.startSending_num : (f.startSending).num = f.num := rfl
@[simp] theorem Fcv.startSending_attempts : (f.startSending).attempts = 1 := rfl
@[simp] theorem Fcv.startSending_failcnt : (f.startSending).failcnt = f.failcnt := rfl
@[simp] theorem Fcv.startSending_exp : (f.startSending).exp = f.exp := rfl
@[simp] theorem Fcv.startSending_act : (f.startSending).act = f.act := rfl
@[simp] theorem Fcv.startSending_lastfail : (f.startSending).lastfail = f.lastfail := rfl
@[simp] theorem Fcv.startSending_inbuf : (f.startSending).inbuf = f.inbuf := rfl
@[simp] theorem Fcv.startSending_outbuf : (f.startSending).outbuf = f.outbuf := rfl
@[simp] theorem Fcv.startSending_rxphase : (f.startSending).rxphase = f.rxphase := rfl
@[simp] theorem Fcv.startSending_rxbuf : (f.startSending).rxbuf = f.rxbuf := rfl

/-! ### startReceive -/

@[simp] theorem Fcv.startReceive_seqstate : (f.startReceive).seqstate = .awaitingReply := rfl
@[simp] theorem Fcv.startReceive_cmd : (f.startReceive).cmd = f.cmd := rfl
@[simp] theorem Fcv.startReceive_sessionValid : (f.startReceive).sessionValid = f.sessionValid := rfl
@[simp] theorem Fcv.startReceive_bool : (f.startReceive).bool = f.bool := rfl
@[simp] theorem Fcv.startReceive_result : (f.startReceive).result = f.result := rfl
@[simp] theorem Fcv.startReceive_saddr : (f.startReceive).saddr = f.saddr := rfl
@[simp] theorem Fcv.startReceive_cken : (f.startReceive).cken = f.cken := rfl
@[simp] theorem Fcv.startReceive_smaxretry : (f.startReceive).smaxretry = f.smaxretry := rfl
@[simp] theorem Fcv.startReceive_arg0 : (f.startReceive).arg0 = f.arg0 := rfl
@[simp] theorem Fcv.startReceive_arg1 : (f.startReceive).arg1 = f.arg1 := rfl
@[simp] theorem Fcv.startReceive_arg2 : (f.startReceive).arg2 = f.arg2 := rfl
@[simp] theorem Fcv.startReceive_inlen : (f.startReceive).inlen = f.inlen := rfl
@[simp] theorem Fcv.startReceive_outlen : (f.startReceive).outlen = f.outlen := rfl
@[simp] theorem Fcv.startReceive_num : (f.startReceive).num = f.num := rfl
@[simp] theorem Fcv.startReceive_attempts : (f.startReceive).attempts = f.attempts := rfl
@[simp] theorem Fcv.startReceive_failcnt : (f.startReceive).failcnt = f.failcnt := rfl
@[simp] theorem Fcv.startReceive_exp : (f.startReceive).exp = f.exp := rfl
@[simp] theorem Fcv.startReceive_act : (f.startReceive).act = f.act := rfl
@[simp] theorem Fcv.startReceive_lastfail : (f.startReceive).lastfail = f.lastfail := rfl
@[simp] theorem Fcv.startReceive_inbuf : (f.startReceive).inbuf = f.inbuf := rfl
@[simp] theorem Fcv.startReceive_outbuf : (f.startReceive).outbuf = f.outbuf := rfl
@[simp] theorem Fcv.startReceive_rxphase : (f.startReceive).rxphase = .hunt := rfl
@[simp] theorem Fcv.startReceive_rxbuf : (f.startReceive).rxbuf = [] := rfl

/-! ### storeFailure -/

@[simp] theorem Fcv.storeFailure_seqstate (c : ResultCode) (i : ErrInfo) : (f.storeFailure c i).seqstate = f.seqstate := rfl
@[simp] theorem Fcv.storeFailure_cmd (c : ResultCode) (i : ErrInfo) : (f.storeFailure c i).cmd = f.cmd := rfl
@[simp] theorem Fcv.storeFailure_sessionValid (c : ResultCode) (i : ErrInfo) : (f.storeFailure c i).sessionValid = f.sessionValid := rfl
@[simp] theorem Fcv.storeFailure_bool (c : ResultCode) (i : ErrInfo) : (f.storeFailure c i).bool = f.bool := rfl
@[simp] theorem Fcv.storeFailure_result (c : ResultCode) (i : ErrInfo) : (f.storeFailure c i).result = f.result := rfl
@[simp] theorem Fcv.storeFailure_saddr (c : ResultCode) (i : ErrInfo) : (f.storeFailure c i).saddr = f.saddr := rfl
@[simp] theorem Fcv.storeFailure_cken (c : ResultCode) (i : ErrInfo) : (f.storeFailure c i).cken = f.cken := rfl
@[simp] theorem Fcv.storeFailure_smaxretry (c : ResultCode) (i : ErrInfo) : (f.storeFailure c i).smaxretry = f.smaxretry := rfl
@[simp] theorem Fcv.storeFailure_arg0 (c : ResultCode) (i : ErrInfo) : (f.storeFailure c i).arg0 = f.arg0 := rfl
@[simp] theorem Fcv.storeFailure_arg1 (c : ResultCode) (i : ErrInfo) : (f.storeFailure c i).arg1 = f.arg1 := rfl
@[simp] theorem Fcv.storeFailure_arg2 (c : ResultCode) (i : ErrInfo) : (f.storeFailure c i).arg2 = f.arg2 := rfl
@[simp] theorem Fcv.storeFailure_inlen (c : ResultCode) (i : ErrInfo) : (f.storeFailure c i).inlen = f.inlen := rfl
@[simp] theorem Fcv.storeFailure_outlen (c : ResultCode) (i : ErrInfo) : (f.storeFailure c i).outlen = f.outlen := rfl
@[simp] theorem Fcv.storeFailure_num (c : ResultCode) (i : ErrInfo) : (f.storeFailure c i).num = i.num := rfl
@[simp] theorem Fcv.storeFailure_attempts (c : ResultCode) (i : ErrInfo) : (f.storeFailure c i).attempts = f.attempts := rfl
@[simp] theorem Fcv.storeFailure_failcnt (c : ResultCode) (i : ErrInfo) : (f.storeFailure c i).failcnt = f.failcnt := rfl
@[simp] theorem Fcv.storeFailure_exp (c : ResultCode) (i : ErrInfo) : (f.storeFailure c i).exp = i.exp := rfl
@[simp] theorem Fcv.storeFailure_act (c : ResultCode) (i : ErrInfo) : (f.storeFailure c i).act = i.act := rfl
@[simp] theorem Fcv.storeFailure_lastfail (c : ResultCode) (i : ErrInfo) : (f.storeFailure c i).lastfail = c := rfl
@[simp] theorem Fcv.storeFailure_inbuf (c : ResultCode) (i : ErrInfo) : (f.storeFailure c i).inbuf = f.inbuf := rfl
@[simp] theorem Fcv.storeFailure_outbuf (c : ResultCode) (i : ErrInfo) : (f.storeFailure c i).outbuf = f.outbuf := rfl
@[simp] theorem Fcv.storeFailure_rxphase (c : ResultCode) (i : ErrInfo) : (f.storeFailure c i).rxphase = f.rxphase := rfl
@[simp] theorem Fcv.storeFailure_rxbuf (c : ResultCode) (i : ErrInfo) : (f.storeFailure c i).rxbuf = f.rxbuf := rfl

/-! ### failAttempt -/

@[simp] theorem Fcv.failAttempt_seqstate (c : ResultCode) (i : ErrInfo) : (f.failAttempt c i).seqstate = .decodeFailed := rfl
@[simp] theorem Fcv.failAttempt_cmd (c : ResultCode) (i : ErrInfo) : (f.failAttempt c i).cmd = f.cmd := rfl
@[simp] theorem Fcv.failAttempt_sessionValid (c : ResultCode) (i : ErrInfo) : (f.failAttempt c i).sessionValid = f.sessionValid := rfl
@[simp] theorem Fcv.failAttempt_bool (c : ResultCode) (i : ErrInfo) : (f.failAttempt c i).bool = f.bool := rfl
@[simp] theorem Fcv.failAttempt_result (c : ResultCode) (i : ErrInfo) : (f.failAttempt c i).result = f.result := rfl
@[simp] theorem Fcv.failAttempt_saddr (c : ResultCode) (i : ErrInfo) : (f.failAttempt c i).saddr = f.saddr := rfl
@[simp] theorem Fcv.failAttempt_cken (c : ResultCode) (i : ErrInfo) : (f.failAttempt c i).cken = f.cken := rfl
@[simp] theorem Fcv.failAttempt_smaxretry (c : ResultCode) (i : ErrInfo) : (f.failAttempt c i).smaxretry = f.smaxretry := rfl
@[simp] theorem Fcv.failAttempt_arg0 (c : ResultCode) (i : ErrInfo) : (f.failAttempt c i).arg0 = f.arg0 := rfl
@[simp] theorem Fcv.failAttempt_arg1 (c : ResultCode) (i : ErrInfo) : (f.failAttempt c i).arg1 = f.arg1 := rfl
@[simp] theorem Fcv.failAttempt_arg2 (c : ResultCode) (i : ErrInfo) : (f.failAttempt c i).arg2 = f.arg2 := rfl
@[simp] theorem Fcv.failAttempt_inlen (c : ResultCode) (i : ErrInfo) : (f.failAttempt c i).inlen = f.inlen := rfl
@[simp] theorem Fcv.failAttempt_outlen (c : ResultCode) (i : ErrInfo) : (f.failAttempt c i).outlen = f.outlen := rfl
@[simp] theorem Fcv.failAttempt_num (c : ResultCode) (i : ErrInfo) : (f.failAttempt c i).num = i.num := rfl
@[simp] theorem Fcv.failAttempt_attempts (c : ResultCode) (i : ErrInfo) : (f.failAttempt c i).attempts = f.attempts := rfl
@[simp] theorem Fcv.failAttempt_failcnt (c : ResultCode) (i : ErrInfo) : (f.failAttempt c i).failcnt = f.failcnt + 1 := rfl
@[simp] theorem Fcv.failAttempt_exp (c : ResultCode) (i : ErrInfo) : (f.failAttempt c i).exp = i.exp := rfl
@[simp] theorem Fcv.failAttempt_act (c : ResultCode) (i : ErrInfo) : (f.failAttempt c i).act = i.act := rfl
@[simp] theorem Fcv.failAttempt_lastfail (c : ResultCode) (i : ErrInfo) : (f.failAttempt c i).lastfail = c := rfl
@[simp] theorem Fcv.failAttempt_inbuf (c : ResultCode) (i : ErrInfo) : (f.failAttempt c i).inbuf = f.inbuf := rfl
@[simp] theorem Fcv.failAttempt_outbuf (c : ResultCode) (i : ErrInfo) : (f.failAttempt c i).outbuf = f.outbuf := rfl
@[simp] theorem Fcv.failAttempt_rxphase (c : ResultCode) (i : ErrInfo) : (f.failAttempt c i).rxphase = f.rxphase := rfl
@[simp] theorem Fcv.failAttempt_rxbuf (c : ResultCode) (i : ErrInfo) : (f.failAttempt c i).rxbuf = f.rxbuf := rfl

/-! ### withFcv -/

@[simp] theorem State.withFcv_fcv (f : Fcv) : (s.withFcv f).fcv = f := rfl
@[simp] theorem State.withFcv_params (f : Fcv) : (s.withFcv f).params = s.params := rfl
@[simp] theorem State.withFcv_line (f : Fcv) : (s.withFcv f).line = s.line := rfl
@[simp] theorem State.withFcv_schedule (f : Fcv) : (s.withFcv f).schedule = s.schedule := rfl
@[simp] theorem State.withFcv_reads (f : Fcv) : (s.withFcv f).reads = s.reads := rfl
@[simp] theorem State.withFcv_freeCount (f : Fcv) : (s.withFcv f).freeCount = s.freeCount := rfl

/-! ### logTx -/

@[simp] theorem State.logTx_fcv (r : TxRecord) : (s.logTx r).fcv = s.fcv := rfl
@[simp] theorem State.logTx_params (r : TxRecord) : (s.logTx r).params = s.params := rfl
@[simp] theorem State.logTx_line (r : TxRecord) : (s.logTx r).line = { s.line with sent := s.line.sent ++ [r] } := rfl
@[simp] theorem State.logTx_schedule (r : TxRecord) : (s.logTx r).schedule = s.schedule := rfl
@[simp] theorem State.logTx_reads (r : TxRecord) : (s.logTx r).reads = s.reads := rfl
@[simp] theorem State.logTx_freeCount (r : TxRecord) : (s.logTx r).freeCount = s.freeCount := rfl

/-! ### logRead -/

@[simp] theorem State.logRead_fcv (a v : Byte) : (s.logRead a v).fcv = s.fcv := rfl
@[simp] theorem State.logRead_params (a v : Byte) : (s.logRead a v).params = s.params := rfl
@[simp] theorem State.logRead_line (a v : Byte) : (s.logRead a v).line = s.line := rfl
@[simp] theorem State.logRead_schedule (a v : Byte) : (s.logRead a v).schedule = s.schedule := rfl
@[simp] theorem State.logRead_reads (a v : Byte) : (s.logRead a v).reads = s.reads ++ [(a, v)] := rfl
@[simp] theorem State.logRead_freeCount (a v : Byte) : (s.logRead a v).freeCount = s.freeCount := rfl

/-! ### scheduleWord -/

@[simp] theorem State.scheduleWord_fcv (v : Byte) : (s.scheduleWord v).fcv = s.fcv := rfl
@[simp] theorem State.scheduleWord_params (v : Byte) : (s.scheduleWord v).params = s.params := rfl
@[simp] theorem State.scheduleWord_line (v : Byte) : (s.scheduleWord v).line = s.line := rfl
@[simp] theorem State.scheduleWord_schedule (v : Byte) : (s.scheduleWord v).schedule = .access (.write (regAddr .cmd) v) :: s.schedule := rfl
@[simp] theorem State.scheduleWord_reads (v : Byte) : (s.scheduleWord v).reads = s.reads := rfl
@[simp] theorem State.scheduleWord_freeCount (v : Byte) : (s.scheduleWord v).freeCount = s.freeCount := rfl

/-! ### before -/

@[simp] theorem State.before_fcv (e : Event) (rest : List Event) : (s.before e rest).fcv = s.fcv := rfl
@[simp] theorem State.before_params (e : Event) (rest : List Event) : (s.before e rest).params = s.params := rfl
@[simp] theorem State.before_line (e : Event) (rest : List Event) : (s.before e rest).line = s.line := rfl
@[simp] theorem State.before_schedule (e : Event) (rest : List Event) : (s.before e rest).schedule = e :: rest := rfl
@[simp] theorem State.before_reads (e : Event) (rest : List Event) : (s.before e rest).reads = s.reads := rfl
@[simp] theorem State.before_freeCount (e : Event) (rest : List Event) : (s.before e rest).freeCount = s.freeCount := rfl

/-! ### withSchedule -/

@[simp] theorem State.withSchedule_fcv (rest : List Event) : (s.withSchedule rest).fcv = s.fcv := rfl
@[simp] theorem State.withSchedule_params (rest : List Event) : (s.withSchedule rest).params = s.params := rfl
@[simp] theorem State.withSchedule_line (rest : List Event) : (s.withSchedule rest).line = s.line := rfl
@[simp] theorem State.withSchedule_schedule (rest : List Event) : (s.withSchedule rest).schedule = rest := rfl
@[simp] theorem State.withSchedule_reads (rest : List Event) : (s.withSchedule rest).reads = s.reads := rfl
@[simp] theorem State.withSchedule_freeCount (rest : List Event) : (s.withSchedule rest).freeCount = s.freeCount := rfl

@[simp] theorem State.withFcv_withFcv (g : Fcv) : (s.withFcv f).withFcv g = s.withFcv g := rfl

@[simp] theorem State.withFcv_self : s.withFcv s.fcv = s := rfl

@[simp] theorem Fcv.raise_some (e : ResultCode) (i : ErrInfo) :
    f.raise e (some i) = (f.storeInfo i).finish .failed e := rfl

end Sys2Proof.Machine
end

