-- ==== Sys2Proof/Laws/Ops.lean ====
section
/-! SUPPORT. Buffer memory: the canonical form is kept, a read after a write, and byte strings. One lemma per
shared operation that says all it can do. -/

namespace Sys2Proof.Machine

/-! ### One byte -/

@[simp] theorem Memory.read_nil (i : Nat) : Memory.read [] i = none := rfl

/-- A read after a write: the written byte, and every other byte as it was. -/
theorem Memory.read_write (m : Memory) (i j : Nat) (v : Byte) :
    (m.write i v).read j = if i = j then some v else m.read j := by
  induction m with
  | nil => simp [Memory.write, Memory.read]
  | cons c m ih =>
    obtain ⟨k, b⟩ := c
    unfold Memory.write
    split
    · simp [Memory.read]
    · split
      · subst_vars
        by_cases hj : k = j <;> simp [Memory.read, hj]
      · simp only [Memory.read, ih]
        split
        · rw [if_neg (by omega)]
        · rfl

theorem Memory.mem_write (m : Memory) (i : Nat) (v : Byte) (c : Host.Cell) (h : c ∈ m.write i v) :
    c = (i, v) ∨ c ∈ m := by
  induction m with
  | nil => simpa [Memory.write] using h
  | cons d m ih =>
    obtain ⟨k, b⟩ := d
    unfold Memory.write at h
    split at h
    · simpa using h
    · split at h
      · rcases List.mem_cons.mp h with h | h <;> simp [h]
      · rcases List.mem_cons.mp h with h | h
        · simp [h]
        · rcases ih h with h | h <;> simp [h]

theorem Memory.write_pairwise (m : Memory) (i : Nat) (v : Byte) (h : m.Pairwise (fun c d => c.1 < d.1)) :
    (m.write i v).Pairwise (fun c d => c.1 < d.1) := by
  induction m with
  | nil => simp [Memory.write]
  | cons d m ih =>
    obtain ⟨k, b⟩ := d
    obtain ⟨hk, hm⟩ := List.pairwise_cons.mp h
    unfold Memory.write
    split
    · rename_i hik
      refine List.pairwise_cons.mpr ⟨fun c hc => ?_, h⟩
      rcases List.mem_cons.mp hc with rfl | hc
      · exact hik
      · exact Nat.lt_trans hik (hk c hc)
    · split
      · subst_vars
        exact List.pairwise_cons.mpr ⟨hk, hm⟩
      · refine List.pairwise_cons.mpr ⟨fun c hc => ?_, ih hm⟩
        rcases Memory.mem_write m i v c hc with rfl | hc
        · show k < i
          omega
        · exact hk c hc

/-- A write inside the buffer keeps the canonical form. -/
theorem Memory.write_wf (size : Nat) (m : Memory) (i : Nat) (v : Byte) (h : m.wf size) (hi : i < size) :
    (m.write i v).wf size := by
  refine ⟨Memory.write_pairwise m i v h.1, fun c hc => ?_⟩
  rcases Memory.mem_write m i v c hc with rfl | hc
  · exact hi
  · exact h.2 c hc

/-- A byte at or past the end of a buffer in canonical form has no value. -/
theorem Memory.read_past_end (size : Nat) (m : Memory) (i : Nat) (h : m.wf size) (hi : size ≤ i) :
    m.read i = none := by
  obtain ⟨_, h2⟩ := h
  induction m with
  | nil => rfl
  | cons c m ih =>
    obtain ⟨k, b⟩ := c
    have := h2 (k, b) (by simp)
    simp only [Memory.read]
    rw [if_neg (by simp only at this; omega)]
    exact ih (List.pairwise_cons.mp ‹_›).2 (fun c hc => h2 c (List.mem_cons_of_mem _ hc))

/-! ### Byte strings -/

theorem Memory.writeFrom_pairwise (s : List Byte) (m : Memory) (i : Nat)
    (h : m.Pairwise (fun c d => c.1 < d.1)) : (m.writeFrom i s).Pairwise (fun c d => c.1 < d.1) := by
  induction s generalizing m i with
  | nil => exact h
  | cons b s ih => exact ih _ _ (Memory.write_pairwise m i b h)

/-- Writing a string that ends inside the buffer keeps the canonical form. -/
theorem Memory.writeFrom_wf (size : Nat) (s : List Byte) (m : Memory) (i : Nat) (h : m.wf size)
    (hi : i + s.length ≤ size) : (m.writeFrom i s).wf size := by
  induction s generalizing m i with
  | nil => exact h
  | cons b s ih =>
    simp only [List.length_cons] at hi
    exact ih _ _ (Memory.write_wf size m i b h (by omega)) (by omega)

/-- What a byte reads as after a string was written from index `i` on. -/
theorem Memory.read_writeFrom (s : List Byte) (m : Memory) (i j : Nat) :
    (m.writeFrom i s).read j = if i ≤ j ∧ j < i + s.length then s[j - i]? else m.read j := by
  induction s generalizing m i with
  | nil =>
    simp only [Memory.writeFrom, List.length_nil, Nat.add_zero]
    rw [if_neg (by omega)]
  | cons b s ih =>
    simp only [Memory.writeFrom, List.length_cons]
    rw [ih, Memory.read_write]
    by_cases h1 : i = j
    · subst h1
      rw [if_neg (by omega), if_pos rfl, if_pos (by omega)]
      simp
    · by_cases h2 : i + 1 ≤ j ∧ j < i + 1 + s.length
      · rw [if_pos h2, if_pos (by omega)]
        rw [show j - i = (j - (i + 1)) + 1 by omega, List.getElem?_cons_succ]
      · rw [if_neg h2, if_neg h1, if_neg (by omega)]

/-- Reading `n` bytes from index `i` on answers `s` exactly when `s` has `n` bytes and each reads so. -/
theorem Memory.readFrom_eq_some (n : Nat) (m : Memory) (i : Nat) (s : List Byte) :
    m.readFrom i n = some s ↔ s.length = n ∧ ∀ k, k < n → m.read (i + k) = s[k]? := by
  induction n generalizing i s with
  | zero =>
    simp only [Memory.readFrom, Option.some.injEq]
    exact ⟨fun h => by subst h; simp, fun h => (List.length_eq_zero_iff.mp h.1).symm⟩
  | succ n ih =>
    unfold Memory.readFrom
    cases s with
    | nil =>
      split <;> simp
    | cons b s =>
      constructor
      · intro h
        split at h
        · rename_i b' rest hb hrest
          simp only [Option.some.injEq, List.cons.injEq] at h
          obtain ⟨rfl, rfl⟩ := h
          obtain ⟨hl, hr⟩ := (ih (i + 1) rest).mp hrest
          refine ⟨by simp [hl], fun k hk => ?_⟩
          cases k with
          | zero => simpa using hb
          | succ k =>
            have := hr k (by omega)
            rw [show i + (k + 1) = i + 1 + k by omega, this]
            simp
        · simp at h
      · rintro ⟨hl, hr⟩
        have h0 : m.read i = some b := by simpa using hr 0 (by omega)
        have h1 : m.readFrom (i + 1) n = some s := by
          refine (ih (i + 1) s).mpr ⟨by simpa using hl, fun k hk => ?_⟩
          have := hr (k + 1) (by omega)
          rw [show i + 1 + k = i + (k + 1) by omega, this]
          simp
        rw [h0, h1]

/-- `BUF[0..n)` is `s` exactly when `s` has `n` bytes and each byte of the buffer reads so. -/
theorem Memory.readRange_eq_some (m : Memory) (n : Nat) (s : List Byte) :
    m.readRange n = some s ↔ s.length = n ∧ HoldsBytes m s := by
  simp only [Memory.readRange, Memory.readFrom_eq_some, Nat.zero_add, HoldsBytes]
  constructor
  · rintro ⟨rfl, h⟩; exact ⟨rfl, h⟩
  · rintro ⟨rfl, h⟩; exact ⟨rfl, h⟩

/-- A range has no value exactly when one of its bytes has none. -/
theorem Memory.readRange_eq_none (m : Memory) (n : Nat) :
    m.readRange n = none ↔ ∃ i, i < n ∧ m.read i = none := by
  suffices h : ∀ i, m.readFrom i n = none ↔ ∃ k, k < n ∧ m.read (i + k) = none by
    simpa [Memory.readRange] using h 0
  induction n with
  | zero => simp [Memory.readFrom]
  | succ n ih =>
    intro i
    unfold Memory.readFrom
    constructor
    · intro h
      cases hb : m.read i with
      | none => exact ⟨0, by omega, by simpa using hb⟩
      | some b =>
        cases hr : m.readFrom (i + 1) n with
        | none =>
          obtain ⟨k, hk, hk'⟩ := (ih (i + 1)).mp hr
          exact ⟨k + 1, by omega, by rwa [show i + (k + 1) = i + 1 + k by omega]⟩
        | some r => simp [hb, hr] at h
    · rintro ⟨k, hk, hk'⟩
      cases k with
      | zero => simp [show m.read i = none by simpa using hk']
      | succ k =>
        have : m.readFrom (i + 1) n = none :=
          (ih (i + 1)).mpr ⟨k, by omega, by rwa [show i + 1 + k = i + (k + 1) by omega]⟩
        simp [this]

/-- After `putOut r` the buffer holds `r` from index 0 on. -/
theorem Fcv.putOut_holds (f : Fcv) (r : List Byte) :
    HoldsBytes (f.putOut r).outbuf r := by
  intro i hi
  rw [Fcv.putOut_outbuf, Memory.read_writeFrom, if_pos (by omega)]
  simp

/-- `putOut r` leaves every byte of OUTBUF past `r` as it was. -/
theorem Fcv.putOut_rest (f : Fcv) (r : List Byte) :
    SameFrom r.length f.outbuf (f.putOut r).outbuf := by
  intro i hi
  rw [Fcv.putOut_outbuf, Memory.read_writeFrom, if_neg (by omega)]

end Sys2Proof.Machine
end

