-- ==== Sys2Proof/Laws/Codec.lean ====
section
/-! SUPPORT. The codec functions: hex digits, the size of the raw checksum, byte-string slices, and what an error of
`decodeReply` can be. -/

namespace Sys2Proof.Machine

/-! ### Hex digits -/

@[simp] theorem hexField_length (b : Byte) : (hexField b).length = 2 := rfl

theorem hexdigit_ne (v : Nibble) : 0x0D#8 ≠ hexdigit v ∧ 0x23#8 ≠ hexdigit v := by
  revert v; decide

/-- A hex field holds neither CR nor `#`. -/
theorem hexField_no_mark (b : Byte) : 0x0D#8 ∉ hexField b ∧ 0x23#8 ∉ hexField b := by
  simp [hexField, hexdigit_ne]

theorem hexdigit_injective (v w : Nibble) (h : hexdigit v = hexdigit w) : v = w := by
  revert v w; decide

theorem nibbles_ext (a b : Byte) (h : a.extractLsb' 4 4 = b.extractLsb' 4 4)
    (l : a.extractLsb' 0 4 = b.extractLsb' 0 4) : a = b := by
  ext i hi
  by_cases h4 : i < 4
  · have := congrArg (fun v => v.getLsbD i) l
    simpa [h4, BitVec.getLsbD_extractLsb', BitVec.getLsbD_eq_getElem hi] using this
  · have := congrArg (fun v => v.getLsbD (i - 4)) h
    have h5 : i - 4 < 4 := by omega
    have h6 : 4 + (i - 4) = i := by omega
    simpa [h5, h6, BitVec.getLsbD_extractLsb', BitVec.getLsbD_eq_getElem hi] using this

/-- Two bytes with the same hex field are equal. -/
theorem hexField_injective (a b : Byte) (h : hexField a = hexField b) : a = b := by
  simp only [hexField, List.cons.injEq, and_true] at h
  exact nibbles_ext a b (hexdigit_injective _ _ h.1) (hexdigit_injective _ _ h.2)

/-! ### The raw checksum -/

theorem ckreduceLoop_le (k s : Nat) (h : s ≤ 256 * (k + 1)) : ckreduceLoop k s ≤ 256 := by
  induction k generalizing s with
  | zero => simpa [ckreduceLoop] using h
  | succ k ih =>
    unfold ckreduceLoop
    split
    · exact ih _ (by omega)
    · omega

/-- The raw checksum lies in 0..256. -/
theorem ckraw_le (bytes : List Byte) : ckraw bytes ≤ 256 := ckreduceLoop_le _ _ (by omega)

/-- The raw checksum fits NUM. -/
@[simp] theorem ckraw_half (bytes : List Byte) : (BitVec.ofNat 16 (ckraw bytes)).toNat = ckraw bytes := by
  have := ckraw_le bytes
  simp only [BitVec.toNat_ofNat]
  omega

/-! ### decodeReply -/

theorem checkReplyChecksum_err (body : List Byte) (c : ResultCode) (info : ErrInfo)
    (h : checkReplyChecksum body = .err c info) :
    (c = .rangeError ∧ info = numInfo 256) ∨ c = .checksumError := by
  unfold checkReplyChecksum at h
  dsimp only at h
  split at h
  · simp only [CodecResult.err.injEq] at h
    exact .inl ⟨h.1.symm, h.2.symm⟩
  · split at h
    · simp only [CodecResult.err.injEq] at h
      exact .inr h.1.symm
    · simp at h

theorem checkReplyBody_err (body : List Byte) (e : Byte) (cken : Bool) (c : ResultCode) (info : ErrInfo)
    (h : checkReplyBody body e cken = .err c info) :
    (c = .rangeError ∧ info = numInfo 256) ∨ RetryEligible c := by
  unfold checkReplyBody at h
  dsimp only at h
  split at h
  · simp only [CodecResult.err.injEq] at h
    exact .inr (.inr (.inl h.1.symm))
  · split at h
    · rcases checkReplyChecksum_err _ _ _ h with h | h
      · exact .inl h
      · exact .inr (.inr (.inr h))
    · simp at h

/-- The errors of `decodeReply`: RANGE_ERROR with num = 256, or one of the three retry-eligible errors. -/
theorem decodeReply_err (f : List Byte) (e : Byte) (cken : Bool) (c : ResultCode) (info : ErrInfo)
    (h : decodeReply f e cken = .err c info) :
    (c = .rangeError ∧ info = numInfo 256) ∨ RetryEligible c := by
  unfold decodeReply at h
  dsimp only at h
  repeat' split at h
  all_goals first
    | exact checkReplyBody_err _ _ _ _ _ h
    | (simp only [CodecResult.err.injEq] at h
       exact .inr (.inl h.1.symm))

theorem slice_length (s : List Byte) (i j : Nat) : (slice s i j).length = min (j - i) (s.length - i) := by
  simp [slice]

theorem checkReplyChecksum_ok_length (body p : List Byte) (h : checkReplyChecksum body = .ok p) :
    p.length = body.length - 4 := by
  unfold checkReplyChecksum at h
  dsimp only at h
  split at h
  · simp at h
  · split at h
    · simp at h
    · simp only [CodecResult.ok.injEq] at h
      subst h
      rw [slice_length]
      omega

theorem checkReplyBody_ok_length (body : List Byte) (e : Byte) (cken : Bool) (p : List Byte)
    (h : checkReplyBody body e cken = .ok p) :
    p.length = if cken = true then body.length - 4 else body.length - 2 := by
  unfold checkReplyBody at h
  dsimp only at h
  split at h
  · simp at h
  · cases cken with
    | true => simpa using checkReplyChecksum_ok_length body p (by simpa using h)
    | false =>
      simp only [Bool.false_eq_true, if_false, CodecResult.ok.injEq] at h ⊢
      rw [← h, slice_length]
      omega

/-- A decoded payload is at least four bytes shorter than its frame (R117). -/
theorem decodeReply_ok_length (f : List Byte) (e : Byte) (cken : Bool) (p : List Byte)
    (h : decodeReply f e cken = .ok p) : p.length + 4 ≤ f.length := by
  unfold decodeReply at h
  dsimp only at h
  split at h
  · simp at h
  · rename_i h0
    by_cases h1 : f[f.length - 1]? ≠ some Config.term
    · rw [if_pos h1] at h
      simp at h
    · rw [if_neg h1] at h
      by_cases hb : (slice f 1 (f.length - 1)).length < if cken = true then 4 else 2
      · rw [if_pos hb] at h
        simp at h
      · rw [if_neg hb] at h
        have := checkReplyBody_ok_length _ _ _ _ h
        rw [slice_length] at hb this
        cases cken <;> simp only [Bool.false_eq_true, if_true, if_false] at hb this <;> omega

/-- `checksum` by the raw value. -/
theorem checksum_eq (bytes : List Byte) :
    checksum bytes =
      if ckraw bytes = 256 then .err .rangeError (numInfo 256)
      else .ok (hexField (BitVec.ofNat 8 (ckraw bytes))) := by
  unfold checksum hexifyByte
  have := ckraw_le bytes
  split
  · rfl
  · rw [if_neg (by omega)]

/-- `encodeCommand` by the raw checksum of its frame. -/
theorem encodeCommand_eq (a : Byte) (p : List Byte) :
    encodeCommand a p =
      if ckraw (hexField a ++ p) = 256 then .err .rangeError (numInfo 256)
      else .ok ([Config.cmdStart] ++ hexField a ++ p ++
        hexField (BitVec.ofNat 8 (ckraw (hexField a ++ p))) ++ [Config.term]) := by
  unfold encodeCommand
  rw [checksum_eq]
  by_cases h : ckraw (hexField a ++ p) = 256
  · rw [if_pos h, if_pos h]
  · rw [if_neg h, if_neg h]

end Sys2Proof.Machine
end

