-- ==== Sys2Proof/Laws/Issue.lean ====
section
/-! SUPPORT. The issue of an operation and the checks on operands: for each shared operation, once, all that it can
do. -/

namespace Sys2Proof.Machine

variable (s t : State) (f g : Fcv)

@[simp] theorem State.lift_next : s.lift (.next f) = .next (s.withFcv f) := rfl
@[simp] theorem State.lift_fault (r : Fault) : s.lift (.fault r) = .fault r := rfl
@[simp] theorem State.lift_refused (r : Refusal) : s.lift (.refused r) = .refused r := rfl

/-- BUSY by the sequencer state (R24). -/
theorem Fcv.busy_iff : f.busy = true ↔ f.seqstate = .sending ∨ f.seqstate = .awaitingReply ∨
    f.seqstate = .decodingOk ∨ f.seqstate = .decodeFailed := by
  unfold Fcv.busy
  cases f.seqstate <;> decide

/-- BUSY = 0 by the sequencer state (R24). -/
theorem Fcv.not_busy_iff : f.busy = false ↔ f.seqstate = .idle ∨ f.seqstate = .done ∨
    f.seqstate = .exhausted ∨ f.seqstate = .failed := by
  unfold Fcv.busy
  cases f.seqstate <;> decide

/-- Issue while BUSY = 0. -/
theorem State.issue_idle (v : Byte) (body : Fcv → Host.Outcome Fcv Fault Refusal) (h : s.fcv.busy = false) :
    s.issue v body = s.lift (body (s.fcv.issued v)) := by
  simp [State.issue, h]

/-- Issue while BUSY = 1. -/
theorem State.issue_busy (v : Byte) (body : Fcv → Host.Outcome Fcv Fault Refusal) (h : s.fcv.busy = true) :
    s.issue v body = .refused .hostWriteWhileBusy := by
  simp [State.issue, h]

/-- All that an issue can do if it answers a next state. -/
theorem State.issue_next (v : Byte) (body : Fcv → Host.Outcome Fcv Fault Refusal)
    (h : s.issue v body = .next t) :
    s.fcv.busy = false ∧ ∃ g, body (s.fcv.issued v) = .next g ∧ t = s.withFcv g := by
  unfold State.issue at h
  split at h
  · cases h
  · rename_i hb
    refine ⟨by simpa using hb, ?_⟩
    cases hbody : body (s.fcv.issued v) with
    | next g =>
      simp only [hbody, State.lift_next, Host.Outcome.next.injEq] at h
      exact ⟨g, rfl, h.symm⟩
    | fault r => simp [hbody] at h
    | refused r => simp [hbody] at h

/-- INLEN > 64: RANGE_ERROR (R74). -/
theorem Fcv.checkInlen_long (k : Host.Outcome Fcv Fault Refusal) (h : 64 < f.inlen.toNat) :
    f.checkInlen k = .next (f.raise .rangeError none) := by
  unfold Fcv.checkInlen
  rw [if_pos (by simpa only [Config.inbufSize] using h)]

/-- INLEN at most 64 passes the check (R74). -/
theorem Fcv.checkInlen_short (k : Host.Outcome Fcv Fault Refusal) (h : f.inlen.toNat ≤ 64) :
    f.checkInlen k = k := by
  unfold Fcv.checkInlen
  rw [if_neg (by simp only [Config.inbufSize]; omega)]

/-- The operand has a value: the operation's own rule runs on it. -/
theorem Fcv.readOperand_is (k : List Byte → Host.Outcome Fcv Fault Refusal) (p : List Byte)
    (h : OperandIs f p) : f.readOperand k = k p := by
  unfold Fcv.readOperand
  rw [(Memory.readRange_eq_some _ _ _).mpr h.2]

/-- An operand byte that nothing has written: a fault (R40). -/
theorem Fcv.readOperand_unwritten (k : List Byte → Host.Outcome Fcv Fault Refusal) (i : Nat)
    (hi : i < f.inlen.toNat) (hr : f.inbuf.read i = none) : f.readOperand k = .fault .operandNoValue := by
  unfold Fcv.readOperand
  rw [(Memory.readRange_eq_none _ _).mpr ⟨i, hi, hr⟩]

/-- The operand of R74 is there: the operation's own rule runs on it. -/
theorem Fcv.withOperand_is (k : List Byte → Host.Outcome Fcv Fault Refusal) (p : List Byte)
    (h : OperandIs f p) : f.withOperand k = k p := by
  unfold Fcv.withOperand
  rw [f.checkInlen_short _ h.1, f.readOperand_is k p h]

/-- INLEN > 64: RANGE_ERROR (R74). -/
theorem Fcv.withOperand_long (k : List Byte → Host.Outcome Fcv Fault Refusal) (h : 64 < f.inlen.toNat) :
    f.withOperand k = .next (f.raise .rangeError none) := f.checkInlen_long _ h

/-- An operand byte that nothing has written: a fault (R40). -/
theorem Fcv.withOperand_unwritten (k : List Byte → Host.Outcome Fcv Fault Refusal) (i : Nat)
    (h : f.inlen.toNat ≤ 64) (hi : i < f.inlen.toNat) (hr : f.inbuf.read i = none) :
    f.withOperand k = .fault .operandNoValue := by
  unfold Fcv.withOperand
  rw [f.checkInlen_short _ h, f.readOperand_unwritten k i hi hr]

/-- All that `withOperand` can do if it answers a next state. -/
theorem Fcv.withOperand_next (k : List Byte → Host.Outcome Fcv Fault Refusal)
    (h : f.withOperand k = .next g) :
    (64 < f.inlen.toNat ∧ g = f.raise .rangeError none) ∨ ∃ p, OperandIs f p ∧ k p = .next g := by
  by_cases hl : 64 < f.inlen.toNat
  · rw [f.withOperand_long k hl] at h
    simp only [Host.Outcome.next.injEq] at h
    exact .inl ⟨hl, h.symm⟩
  · cases hr : f.inbuf.readRange f.inlen.toNat with
    | none =>
      obtain ⟨i, hi, hn⟩ := (Memory.readRange_eq_none _ _).mp hr
      rw [f.withOperand_unwritten k i (by omega) hi hn] at h
      cases h
    | some p =>
      obtain ⟨hp, hh⟩ := (Memory.readRange_eq_some _ _ _).mp hr
      have ho : OperandIs f p := ⟨by omega, hp, hh⟩
      rw [f.withOperand_is k p ho] at h
      exact .inr ⟨p, ho, h⟩

theorem validAddress_iff (p : Params) (a : Byte) : validAddress p a = true ↔ IsDeviceAddress p a := by
  simp [validAddress, IsDeviceAddress, Config.addrMax]

/-- A valid address operand (R75). -/
theorem Fcv.withAddress_valid (p : Params) (k : Host.Outcome Fcv Fault Refusal)
    (h : IsDeviceAddress p f.arg0) : f.withAddress p k = k := by
  unfold Fcv.withAddress
  rw [if_pos ((validAddress_iff _ _).mpr h)]

/-- An address operand that is not valid: RANGE_ERROR (R75). -/
theorem Fcv.withAddress_invalid (p : Params) (k : Host.Outcome Fcv Fault Refusal)
    (h : ¬ IsDeviceAddress p f.arg0) : f.withAddress p k = .next (f.raise .rangeError none) := by
  unfold Fcv.withAddress
  rw [if_neg (fun hv => h ((validAddress_iff _ _).mp hv))]

/-- All that `withAddress` can do. -/
theorem Fcv.withAddress_cases (p : Params) (k : Host.Outcome Fcv Fault Refusal) :
    (IsDeviceAddress p f.arg0 ∧ f.withAddress p k = k) ∨
      (¬ IsDeviceAddress p f.arg0 ∧ f.withAddress p k = .next (f.raise .rangeError none)) := by
  by_cases h : IsDeviceAddress p f.arg0
  · exact .inl ⟨h, f.withAddress_valid p k h⟩
  · exact .inr ⟨h, f.withAddress_invalid p k h⟩

/-- INLEN > 64 in an operation with an address operand: RANGE_ERROR (R101, R102). -/
theorem Fcv.withAddressedOperand_long (p : Params) (k : List Byte → Host.Outcome Fcv Fault Refusal)
    (h : 64 < f.inlen.toNat) : f.withAddressedOperand p k = .next (f.raise .rangeError none) :=
  f.checkInlen_long _ h

/-- An address operand that is not valid, whatever INBUF holds: RANGE_ERROR (R101, R102). -/
theorem Fcv.withAddressedOperand_invalid (p : Params) (k : List Byte → Host.Outcome Fcv Fault Refusal)
    (h : f.inlen.toNat ≤ 64) (ha : ¬ IsDeviceAddress p f.arg0) :
    f.withAddressedOperand p k = .next (f.raise .rangeError none) := by
  unfold Fcv.withAddressedOperand
  rw [f.checkInlen_short _ h, f.withAddress_invalid _ _ ha]

/-- A valid address operand: as without one (R101, R102). -/
theorem Fcv.withAddressedOperand_valid (p : Params) (k : List Byte → Host.Outcome Fcv Fault Refusal)
    (ha : IsDeviceAddress p f.arg0) : f.withAddressedOperand p k = f.withOperand k := by
  unfold Fcv.withAddressedOperand Fcv.withOperand
  rw [f.withAddress_valid _ _ ha]

/-- All that `withSession` can do (R104, R106). -/
theorem Fcv.withSession_cases (k : Host.Outcome Fcv Fault Refusal) :
    (f.sessionValid = true ∧ f.withSession k = k) ∨
      (f.sessionValid = false ∧ f.withSession k = .next (f.raise .noSession none)) := by
  unfold Fcv.withSession
  cases f.sessionValid <;> simp

/-- The command frame of a readable operand. -/
theorem Fcv.commandFrame_is (p : List Byte) (h : OperandIs f p) :
    f.commandFrame = some (encodeCommand f.saddr p) := by
  unfold Fcv.commandFrame
  rw [(Memory.readRange_eq_some _ _ _).mpr ⟨h.2.1, h.2.2⟩]

/-- The last session check by the raw checksum of the frame (R104). -/
theorem Fcv.checkFrame_eq (k : Fcv → Fcv) (p : List Byte) :
    f.checkFrame k p =
      if ckraw (hexField f.saddr ++ p) = 256 then
        (f.setNum (ckraw (hexField f.saddr ++ p))).raise .rangeError none
      else k (f.setNum (ckraw (hexField f.saddr ++ p))) := by
  unfold Fcv.checkFrame
  rw [encodeCommand_eq]
  by_cases h : ckraw (hexField f.saddr ++ p) = 256
  · simp only [if_pos h]
  · simp only [if_neg h]

/-- All that the session checks of a sending operation can do if they answer a next state (R104). -/
theorem Fcv.withCommandFrame_next (k : Fcv → Fcv) (h : f.withCommandFrame k = .next g) :
    (f.sessionValid = false ∧ g = f.raise .noSession none) ∨
    (f.sessionValid = true ∧ 64 < f.inlen.toNat ∧ g = f.raise .rangeError none) ∨
    (f.sessionValid = true ∧ ∃ p, OperandIs f p ∧ g = f.checkFrame k p) := by
  unfold Fcv.withCommandFrame at h
  rcases f.withSession_cases (f.withOperand fun p => .next (f.checkFrame k p)) with ⟨hs, he⟩ | ⟨hs, he⟩
  · rw [he] at h
    rcases f.withOperand_next g _ h with ⟨hl, rfl⟩ | ⟨p, hp, hk⟩
    · exact .inr (.inl ⟨hs, hl, rfl⟩)
    · simp only [Host.Outcome.next.injEq] at hk
      exact .inr (.inr ⟨hs, p, hp, hk.symm⟩)
  · rw [he] at h
    simp only [Host.Outcome.next.injEq] at h
    exact .inl ⟨hs, h.symm⟩

/-- The session checks up to the frame pass (R104). -/
theorem Fcv.withCommandFrame_is (k : Fcv → Fcv) (p : List Byte) (hs : f.sessionValid = true)
    (hp : OperandIs f p) : f.withCommandFrame k = .next (f.checkFrame k p) := by
  unfold Fcv.withCommandFrame Fcv.withSession
  rw [if_pos hs, f.withOperand_is _ p hp]

end Sys2Proof.Machine
end

