-- ==== Sys2Proof/Laws/PerInstr.lean ====
section
/-! SUPPORT. Statements about every operation as syntax, one lemma per constructor of `Instr`: its word is one byte,
which is not an illegal word, and decodes to it; the bits above the word's byte do not matter. -/

namespace Sys2Proof.Laws.F

/-- The word of an operation (R69, R70): one byte, from 0x01 to 0x0B, that decodes to the operation, whatever comes
after it, also when given as a number. -/
def Statement (i : Instr) : Prop :=
  i.wellFormed = true ∧ 1 ≤ (opcode i).toNat ∧ (opcode i).toNat ≤ 0x0B ∧ encode i = [opcode i] ∧
    (∀ rest : List Byte, decode (encode i ++ rest) = .ok i rest) ∧ decodeTableWord 8 (opcode i).toNat = some i

theorem configure : Statement .configure := ⟨rfl, by decide, by decide, rfl, fun _ => rfl, rfl⟩
theorem hexify : Statement .hexify := ⟨rfl, by decide, by decide, rfl, fun _ => rfl, rfl⟩
theorem unhexify : Statement .unhexify := ⟨rfl, by decide, by decide, rfl, fun _ => rfl, rfl⟩
theorem checksum : Statement .checksum := ⟨rfl, by decide, by decide, rfl, fun _ => rfl, rfl⟩
theorem encode : Statement .encode := ⟨rfl, by decide, by decide, rfl, fun _ => rfl, rfl⟩
theorem decode : Statement .decode := ⟨rfl, by decide, by decide, rfl, fun _ => rfl, rfl⟩
theorem send : Statement .send := ⟨rfl, by decide, by decide, rfl, fun _ => rfl, rfl⟩
theorem receive : Statement .receive := ⟨rfl, by decide, by decide, rfl, fun _ => rfl, rfl⟩
theorem query : Statement .query := ⟨rfl, by decide, by decide, rfl, fun _ => rfl, rfl⟩
theorem queryRetry : Statement .queryRetry := ⟨rfl, by decide, by decide, rfl, fun _ => rfl, rfl⟩
theorem command : Statement .command := ⟨rfl, by decide, by decide, rfl, fun _ => rfl, rfl⟩

end Sys2Proof.Laws.F
end

