-- ==== Sys2Proof/Laws/Step.lean ====
section
/-! SUPPORT. The transport transactions, the sequencer's steps, the host bus and the step: for each, once, all that
it can do. -/

namespace Sys2Proof.Machine

variable (s t : State) (f : Fcv)

/-! ### The transport -/

/-- What one transport transaction leaves unchanged besides the line itself. -/
structure OnlyLine (s t : State) : Prop where
  fcv : t.fcv = s.fcv
  params : t.params = s.params
  schedule : t.schedule = s.schedule
  reads : t.reads = s.reads

/-- All that an RxRead does (R65): it answers the next answer and takes it off the list. -/
theorem State.rxRead_eq : ∃ t, s.rxRead = (s.nextRx, t) ∧ OnlyLine s t ∧ t.line.sent = s.line.sent ∧
    t.line.tx = s.line.tx ∧ t.line.rx = s.line.rx.tail := by
  unfold State.rxRead State.nextRx
  cases h : s.line.rx with
  | nil => exact ⟨_, rfl, ⟨rfl, rfl, rfl, rfl⟩, rfl, rfl, by simp [h]⟩
  | cons a rest => exact ⟨_, rfl, ⟨rfl, rfl, rfl, rfl⟩, rfl, rfl, by simp⟩

/-- All that a TxWrite does (R64): it answers the next answer, takes it off the list, and puts the frame on
record. -/
theorem State.txWrite_eq (frame : List Byte) : ∃ t, s.txWrite frame = (s.nextTx, t) ∧ OnlyLine s t ∧
    t.line.sent = s.line.sent ++ [txRecord frame s.nextTx] ∧ t.line.rx = s.line.rx ∧
    t.line.tx = s.line.tx.tail := by
  unfold State.txWrite State.nextTx
  cases h : s.line.tx with
  | nil => exact ⟨_, rfl, ⟨rfl, rfl, rfl, rfl⟩, rfl, rfl, by simp [h]⟩
  | cons a rest => exact ⟨_, rfl, ⟨rfl, rfl, rfl, rfl⟩, rfl, rfl, by simp⟩

/-! ### The sequencer -/

/-- All that the step in AWAITING_REPLY does (R114 to R117). -/
theorem seqAwaiting_eq : ∃ t, seqAwaiting s = .next (t.withFcv (s.fcv.rxAnswer s.nextRx)) ∧ OnlyLine s t ∧
    t.line.sent = s.line.sent ∧ t.line.tx = s.line.tx ∧ t.line.rx = s.line.rx.tail := by
  obtain ⟨t, h, h1, h2⟩ := s.rxRead_eq
  exact ⟨t, by simp only [seqAwaiting, h, h1.fcv], h1, h2⟩

/-- What SENDING does to FCV, by the transport's answer (R113). -/
def Fcv.afterTx (f : Fcv) (a : TxAnswer) : Fcv :=
  match a with
  | .ok => f.afterSend
  | .transportFault _ => f.raise .transportError none

/-- All that the step in SENDING does when its frame encodes (R113). -/
theorem seqSending_eq (frame : List Byte) (hf : s.fcv.commandFrame = some (.ok frame)) :
    ∃ t, seqSending s = .next (t.withFcv (s.fcv.afterTx s.nextTx)) ∧ OnlyLine s t ∧
      t.line.sent = s.line.sent ++ [txRecord frame s.nextTx] ∧ t.line.rx = s.line.rx ∧
      t.line.tx = s.line.tx.tail := by
  obtain ⟨t, h, h1, h2⟩ := s.txWrite_eq frame
  refine ⟨t, ?_, h1, h2⟩
  unfold seqSending
  rw [hf]
  simp only [h]
  cases s.nextTx <;> simp only [Fcv.afterTx, h1.fcv]

/-- If the step in SENDING answers a next state, its frame encoded (R113). -/
theorem seqSending_next (h : seqSending s = .next t) : ∃ frame, s.fcv.commandFrame = some (.ok frame) := by
  unfold seqSending at h
  cases hc : s.fcv.commandFrame with
  | none => simp [hc] at h
  | some r =>
    cases r with
    | ok frame => exact ⟨frame, rfl⟩
    | err c i => simp [hc] at h

/-- All that the step in DECODING_OK can do if it answers a next state (R118). -/
theorem seqDecodingOk_next (h : seqDecodingOk s = .next t) :
    (s.fcv.cmd = opcode .command ∧ ∃ p, p.length = s.fcv.outlen.toNat ∧ HoldsBytes s.fcv.outbuf p ∧
      t = s.withFcv (s.fcv.interpret p)) ∨
    (s.fcv.cmd ≠ opcode .command ∧ t = s.withFcv (s.fcv.finish .done .ok)) := by
  unfold seqDecodingOk at h
  by_cases hc : s.fcv.cmd = opcode .command
  · rw [if_pos hc] at h
    cases hr : s.fcv.outbuf.readRange s.fcv.outlen.toNat with
    | none => simp [hr] at h
    | some p =>
      simp only [hr, Host.Outcome.next.injEq] at h
      obtain ⟨hl, hh⟩ := (Memory.readRange_eq_some _ _ _).mp hr
      exact .inl ⟨hc, p, hl, hh, h.symm⟩
  · rw [if_neg hc] at h
    simp only [Host.Outcome.next.injEq] at h
    exact .inr ⟨hc, h.symm⟩

/-- All that the decode at the terminator can do (R117). -/
theorem Fcv.decodeCandidate_cases :
    (∃ p, decodeReply f.rxbuf f.saddr f.cken = .ok p ∧
      f.decodeCandidate = { f.storeReply f.rxbuf p f.cken with seqstate := .decodingOk }) ∨
    (decodeReply f.rxbuf f.saddr f.cken = .err .rangeError (numInfo 256) ∧
      f.decodeCandidate = ({ f with num := 256 }).raise .rangeError none) ∨
    (∃ c info, RetryEligible c ∧ decodeReply f.rxbuf f.saddr f.cken = .err c info ∧
      f.decodeCandidate = f.failAttempt c info) := by
  unfold Fcv.decodeCandidate
  cases h : decodeReply f.rxbuf f.saddr f.cken with
  | ok p => exact .inl ⟨p, rfl, rfl⟩
  | err c info =>
    rcases decodeReply_err _ _ _ _ _ h with ⟨rfl, rfl⟩ | hc
    · exact .inr (.inl ⟨rfl, rfl⟩)
    · refine .inr (.inr ⟨c, info, hc, rfl, ?_⟩)
      have : c ≠ .rangeError := by rcases hc with rfl | rfl | rfl <;> decide
      simp [this]

/-! ### The step -/

@[simp] theorem step_before_seq (rest : List Event) :
    step (s.before .seq rest) = seqStep (s.withSchedule rest) := rfl

@[simp] theorem step_before_wait (rest : List Event) :
    step (s.before .wait rest) = runWait (s.withSchedule rest) := rfl

@[simp] theorem step_before_read (a : Byte) (rest : List Event) :
    step (s.before (.access (.read a)) rest) = busRead a (s.withSchedule rest) := rfl

@[simp] theorem step_before_write (a v : Byte) (rest : List Event) :
    step (s.before (.access (.write a v)) rest) = busWrite a v (s.withSchedule rest) := rfl

@[simp] theorem step_before_reset (n : Nat) (rest : List Event) :
    step (s.before (.reset n) rest) = .next (resetFcv n (s.withSchedule rest)) := rfl

theorem step_nil (h : s.schedule = []) : step s = seqStep s := by
  unfold step
  rw [h]
  rfl

theorem step_cons (e : Event) (rest : List Event) (h : s.schedule = e :: rest) :
    step s = runEvent e (s.withSchedule rest) := by
  unfold step
  rw [h]
  rfl

/-- All that a host read does if it answers a next state (R51). -/
theorem busRead_next (a : Byte) (h : busRead a s = .next t) :
    ∃ v n, t = { s with reads := s.reads ++ [(a, v)], freeCount := n } := by
  unfold busRead at h
  split at h
  · simp only [Host.Outcome.next.injEq] at h
    exact ⟨_, s.freeCount, h.symm⟩
  · simp only [Host.Outcome.next.injEq] at h
    exact ⟨_, s.freeCount + 1, h.symm⟩
  · cases h

/-- All that a host write can do if it answers a next state (R50, R51). -/
theorem busWrite_next (a v : Byte) (h : busWrite a v s = .next t) :
    s.fcv.busy = false ∧
      ((locate a = .reg .cmd ∧ writeCmd v s = .next t) ∨
        (locate a ≠ .reg .cmd ∧ t = s.withFcv (s.fcv.storeByte (locate a) v))) := by
  unfold busWrite at h
  split at h
  · cases h
  · rename_i hb
    refine ⟨by simpa using hb, ?_⟩
    split at h
    · exact .inl ⟨‹_›, h⟩
    · simp only [Host.Outcome.next.injEq] at h
      exact .inr ⟨‹_›, h.symm⟩

/-- A write to CMD runs the operation its value selects, or ends with BAD_OPCODE (R71). -/
theorem writeCmd_cases (v : Byte) :
    (∃ i, v = opcode i ∧ writeCmd v s = exec i s) ∨
      ((v.toNat = 0 ∨ 0x0C ≤ v.toNat) ∧ writeCmd v s = execBadOpcode v s) := by
  have key : (∃ i, v = opcode i ∧ decode [v] = .ok i []) ∨
      ((v.toNat = 0 ∨ 0x0C ≤ v.toNat) ∧ decode [v] = .badOpcode v) := by
    by_cases h : v.toNat = 0 ∨ 0x0C ≤ v.toNat
    · refine .inr ⟨h, ?_⟩
      have hn : decodeByte v = none := by revert v; decide
      simp [decode, hn]
    · have hv : v = BitVec.ofNat 8 v.toNat := by simp
      have h1 : 0 < v.toNat ∧ v.toNat < 12 := by omega
      generalize v.toNat = n at hv h1
      subst hv
      obtain ⟨h1, h2⟩ := h1
      refine .inl ?_
      interval_cases n
      exacts [⟨.configure, rfl, rfl⟩, ⟨.hexify, rfl, rfl⟩, ⟨.unhexify, rfl, rfl⟩, ⟨.checksum, rfl, rfl⟩,
        ⟨.encode, rfl, rfl⟩, ⟨.decode, rfl, rfl⟩, ⟨.send, rfl, rfl⟩, ⟨.receive, rfl, rfl⟩,
        ⟨.query, rfl, rfl⟩, ⟨.queryRetry, rfl, rfl⟩, ⟨.command, rfl, rfl⟩]
  unfold writeCmd
  rcases key with ⟨i, h, hd⟩ | ⟨h, hd⟩
  · exact .inl ⟨i, h, by rw [hd]⟩
  · exact .inr ⟨h, by rw [hd]⟩

/-- All that a step can do if it answers a next state: the sequencer's step, a host read, an operation issued, an
illegal word issued, a byte stored or a write ignored, or a reset. In every case `s0` is `s` with the event
taken off the schedule. -/
theorem step_cases (h : step s = .next t) : ∃ s0 : State,
    s0.fcv = s.fcv ∧ s0.params = s.params ∧ s0.line = s.line ∧ s0.reads = s.reads ∧
    s0.freeCount = s.freeCount ∧
    ((∃ t0, seqStep s0 = .next t0 ∧ t.fcv = t0.fcv ∧ t.params = t0.params ∧ t.line = t0.line ∧
        ((s.schedule = [] ∧ t = t0) ∨ (∃ rest, s.schedule = .seq :: rest ∧ t = t0) ∨
          (∃ rest, s.schedule = .wait :: rest ∧ s.fcv.busy = true ∧
            t = { t0 with schedule := .wait :: t0.schedule }))) ∨
      (∃ a, busRead a s0 = .next t ∧
        ((∃ rest, s.schedule = .access (.read a) :: rest) ∨
          (∃ rest, s.schedule = .wait :: rest ∧ s.fcv.busy = false))) ∨
      (∃ v i rest, s.schedule = .access (.write 0x00 v) :: rest ∧ v = opcode i ∧ s.fcv.busy = false ∧
        exec i s0 = .next t) ∨
      (∃ v rest, s.schedule = .access (.write 0x00 v) :: rest ∧ (v.toNat = 0 ∨ 0x0C ≤ v.toNat) ∧
        s.fcv.busy = false ∧ execBadOpcode v s0 = .next t) ∨
      (∃ a v rest, s.schedule = .access (.write a v) :: rest ∧ locate a ≠ .reg .cmd ∧ s.fcv.busy = false ∧
        t = s0.withFcv (s.fcv.storeByte (locate a) v)) ∨
      (∃ n rest, s.schedule = .reset n :: rest ∧ t = resetFcv n s0)) := by
  have cmd_addr : ∀ a : Byte, locate a = .reg .cmd → a = 0x00 := by decide
  cases hs : s.schedule with
  | nil =>
    rw [step_nil s hs] at h
    exact ⟨s, rfl, rfl, rfl, rfl, rfl, .inl ⟨t, h, rfl, rfl, rfl, .inl ⟨rfl, rfl⟩⟩⟩
  | cons e rest =>
    rw [step_cons s e rest hs] at h
    refine ⟨s.withSchedule rest, rfl, rfl, rfl, rfl, rfl, ?_⟩
    cases e with
    | seq => exact .inl ⟨t, h, rfl, rfl, rfl, .inr (.inl ⟨rest, rfl, rfl⟩)⟩
    | reset n =>
      simp only [runEvent, Host.Outcome.next.injEq] at h
      exact .inr (.inr (.inr (.inr (.inr ⟨n, rest, rfl, h.symm⟩))))
    | wait =>
      simp only [runEvent, runWait] at h
      by_cases hb : s.fcv.busy = true
      · rw [if_pos (by simpa using hb)] at h
        cases h0 : seqStep (s.withSchedule rest) with
        | next t0 =>
          simp only [h0, Host.Outcome.next.injEq] at h
          refine .inl ⟨t0, rfl, ?_, ?_, ?_, .inr (.inr ⟨rest, rfl, hb, h.symm⟩)⟩ <;> rw [← h]
        | fault r => simp [h0] at h
        | refused r => simp [h0] at h
      · rw [if_neg (by simpa using hb)] at h
        exact .inr (.inl ⟨_, h, .inr ⟨rest, rfl, by simpa using hb⟩⟩)
    | access b =>
      cases b with
      | read a => exact .inr (.inl ⟨a, h, .inl ⟨rest, rfl⟩⟩)
      | write a v =>
        obtain ⟨hb, ⟨hl, hw⟩ | ⟨hl, rfl⟩⟩ := busWrite_next _ _ _ _ h
        · obtain rfl := cmd_addr a hl
          rcases writeCmd_cases (s.withSchedule rest) v with ⟨i, hi, he⟩ | ⟨hv, he⟩
          · exact .inr (.inr (.inl ⟨v, i, rest, rfl, hi, hb, he ▸ hw⟩))
          · exact .inr (.inr (.inr (.inl ⟨v, rest, rfl, hv, hb, he ▸ hw⟩)))
        · exact .inr (.inr (.inr (.inr (.inl ⟨a, v, rest, rfl, hl, hb, rfl⟩))))

end Sys2Proof.Machine
end

