-- ==== Sys2Proof/Laws/Runs.lean ====
section
/-! SUPPORT. Runs of several steps, what each operation's issue can do, and what a sequencer step can do: the lemmas a
proof over runs and over the invariant cites instead of unfolding the machine. -/

namespace Sys2Proof.Machine

variable (s t u : State)

/-! ### Runs -/

@[simp] theorem runSteps_zero : runSteps 0 s = .next s := rfl

/-- A run of n + 1 steps whose first step answers `t` is a run of n steps from `t`. -/
theorem runSteps_succ (n : Nat) (h : step s = .next t) : runSteps (n + 1) s = runSteps n t := by
  have h0 : runSteps (n + 1) s = _ := Host.Core.run.eq_2 Sys2Proof.core s n
  have h1 : Sys2Proof.core.step s = _ := h
  rw [h0, h1]
  rfl

/-- A run of n + 1 steps that answers a next state has a first step that does. -/
theorem runSteps_succ_next (n : Nat) (h : runSteps (n + 1) s = .next u) :
    ∃ t, step s = .next t ∧ runSteps n t = .next u := by
  have h0 : runSteps (n + 1) s = _ := Host.Core.run.eq_2 Sys2Proof.core s n
  rw [h0] at h
  cases h1 : step s with
  | next t =>
    have h2 : Sys2Proof.core.step s = _ := h1
    rw [h2] at h
    exact ⟨t, rfl, h⟩
  | fault r =>
    have h2 : Sys2Proof.core.step s = _ := h1
    rw [h2] at h
    cases h
  | refused r =>
    have h2 : Sys2Proof.core.step s = _ := h1
    rw [h2] at h
    cases h

/-- Runs compose. -/
theorem runSteps_add (a b : Nat) (h : runSteps a s = .next t) : runSteps (a + b) s = runSteps b t := by
  induction a generalizing s with
  | zero =>
    simp only [runSteps_zero, Host.Outcome.next.injEq] at h
    rw [Nat.zero_add, h]
  | succ a ih =>
    obtain ⟨v, h1, h2⟩ := runSteps_succ_next s t a h
    rw [show a + 1 + b = a + b + 1 by omega, runSteps_succ s v (a + b) h1]
    exact ih v h2

/-! ### The sequencer -/

/-- All that a sequencer step can do if it answers a next state (R113 to R119). -/
theorem seqStep_cases (h : seqStep s = .next t) :
    (s.fcv.seqstate = .sending ∧ ∃ frame, s.fcv.commandFrame = some (.ok frame) ∧
      t.fcv = s.fcv.afterTx s.nextTx ∧ t.line.rx = s.line.rx ∧ t.line.tx = s.line.tx.tail ∧
      t.line.sent = s.line.sent ++ [txRecord frame s.nextTx]) ∨
    (s.fcv.seqstate = .awaitingReply ∧ t.fcv = s.fcv.rxAnswer s.nextRx ∧ t.line.rx = s.line.rx.tail ∧
      t.line.tx = s.line.tx ∧ t.line.sent = s.line.sent) ∨
    (s.fcv.seqstate = .decodingOk ∧ t.line = s.line ∧
      ((s.fcv.cmd = opcode .command ∧ ∃ p, p.length = s.fcv.outlen.toNat ∧ HoldsBytes s.fcv.outbuf p ∧
          t.fcv = s.fcv.interpret p) ∨
        (s.fcv.cmd ≠ opcode .command ∧ t.fcv = s.fcv.finish .done .ok))) ∨
    (s.fcv.seqstate = .decodeFailed ∧ t.fcv = s.fcv.retryOrEnd ∧ t.line = s.line) ∨
    (s.fcv.busy = false ∧ t = s) := by
  unfold seqStep at h
  split at h
  case h_1 hs =>
    obtain ⟨frame, hf⟩ := seqSending_next s t h
    obtain ⟨v, h1, h2, h3, h4, h5⟩ := seqSending_eq s frame hf
    rw [h, Host.Outcome.next.injEq] at h1
    subst h1
    exact .inl ⟨hs, frame, hf, rfl, h4, h5, h3⟩
  case h_2 hs =>
    obtain ⟨v, h1, h2, h3, h4, h5⟩ := seqAwaiting_eq s
    rw [h, Host.Outcome.next.injEq] at h1
    subst h1
    exact .inr (.inl ⟨hs, rfl, h5, h4, h3⟩)
  case h_3 hs =>
    rcases seqDecodingOk_next s t h with ⟨hc, p, hl, hh, rfl⟩ | ⟨hc, rfl⟩
    · exact .inr (.inr (.inl ⟨hs, rfl, .inl ⟨hc, p, hl, hh, rfl⟩⟩))
    · exact .inr (.inr (.inl ⟨hs, rfl, .inr ⟨hc, rfl⟩⟩))
  case h_4 hs =>
    simp only [seqDecodeFailed, Host.Outcome.next.injEq] at h
    subst h
    exact .inr (.inr (.inr (.inl ⟨hs, rfl, rfl⟩)))
  all_goals
    rename_i hs
    simp only [Host.Outcome.next.injEq] at h
    subst h
    exact .inr (.inr (.inr (.inr ⟨by simp [Fcv.not_busy_iff, hs], rfl⟩)))

/-- A sequencer step leaves the parameter, the schedule and the values read alone. -/
theorem seqStep_surroundings (h : seqStep s = .next t) :
    t.params = s.params ∧ t.schedule = s.schedule ∧ t.reads = s.reads := by
  unfold seqStep at h
  split at h
  case h_1 hs =>
    obtain ⟨frame, hf⟩ := seqSending_next s t h
    obtain ⟨v, h1, h2, _⟩ := seqSending_eq s frame hf
    rw [h, Host.Outcome.next.injEq] at h1
    subst h1
    exact ⟨h2.params, h2.schedule, h2.reads⟩
  case h_2 hs =>
    obtain ⟨v, h1, h2, _⟩ := seqAwaiting_eq s
    rw [h, Host.Outcome.next.injEq] at h1
    subst h1
    exact ⟨h2.params, h2.schedule, h2.reads⟩
  case h_3 hs =>
    rcases seqDecodingOk_next s t h with ⟨_, p, _, _, rfl⟩ | ⟨_, rfl⟩ <;> exact ⟨rfl, rfl, rfl⟩
  case h_4 hs =>
    simp only [seqDecodeFailed, Host.Outcome.next.injEq] at h
    subst h
    exact ⟨rfl, rfl, rfl⟩
  all_goals
    simp only [Host.Outcome.next.injEq] at h
    subst h
    exact ⟨rfl, rfl, rfl⟩

/-- The sending operations share one issue (R107, R109 to R111). -/
theorem exec_sending (i : Instr) (h : IsSendingOp i) :
    exec i s = s.issue (opcode i) fun f => f.withCommandFrame Fcv.startSending := by
  rcases h with rfl | rfl | rfl | rfl <;> rfl

/-- No operation is issued while BUSY = 1 (R53). -/
theorem exec_busy (i : Instr) (h : s.fcv.busy = true) : exec i s = .refused .hostWriteWhileBusy := by
  cases i <;>
    simp only [exec, execConfigure, execHexify, execUnhexify, execChecksum, execEncode, execDecode, execSend,
      execReceive, execQuery, execQueryRetry, execCommand] <;>
    exact s.issue_busy _ _ h

end Sys2Proof.Machine
end

