-- ==== Sys2Proof/Tests/Slice0.lean ====
section
/-! SUPPORT. Tests on fixed values: the checks on syntax, every operation word, the test vectors of spec
95_test_vectors.md one step at a time, and for every statement with hypotheses a state that meets them. -/

namespace Sys2Proof.Tests

open Sys2Proof.Machine

/-! ### Helpers -/

/-- The bytes of an ASCII text. -/
def text (s : String) : List Byte := s.toList.map asciiCode

/-- FCV `f` with the bytes `x` in INBUF and their number in INLEN. -/
def withInput (f : Fcv) (x : List Byte) : Fcv :=
  { f with inbuf := Memory.writeFrom [] 0 x, inlen := BitVec.ofNat 8 x.length }

/-- The machine with FCV as given and nothing around it. -/
def machine (f : Fcv) : State := { State.reset with fcv := f }

/-- FCV after CONFIGURE with ARG0 = a, ARG1 = r, CKEN = c. -/
def session (a r : Byte) (c : Bool) : Fcv :=
  { Fcv.reset with seqstate := .done, result := .ok, cmd := 0x01, arg0 := a, arg1 := r
                   saddr := a, smaxretry := r, cken := c, sessionValid := true }

/-- The session `f`, in SENDING with the first attempt of operation word `v` and the payload `x`. -/
def sending (f : Fcv) (v : Byte) (x : List Byte) : Fcv :=
  { withInput f x with seqstate := .sending, result := .none, cmd := v, attempts := 1 }

/-- The session `f`, in AWAITING_REPLY with the first attempt of operation word `v`. -/
def awaiting (f : Fcv) (v : Byte) (x : List Byte) (ph : RxPhase) (held : List Byte) : Fcv :=
  { sending f v x with seqstate := .awaitingReply, rxphase := ph, rxbuf := held }

/-- The machine `s` with the answers the transport will give. -/
def onLine (s : State) (rx : List RxAnswer) (tx : List TxAnswer) : State :=
  { s with line := { rx := rx, tx := tx, sent := [] } }

/-- FCV after a step, if the step answers a next state. -/
def fcvOf (o : Host.Outcome State Fault Refusal) : Option Fcv :=
  match o with
  | .next t => some t.fcv
  | .fault _ => none
  | .refused _ => none

/-- SEQSTATE, RESULT, NUM and OUTBUF[0..OUTLEN) after a step. -/
def ends (o : Host.Outcome State Fault Refusal) : Option (SeqState × ResultCode × Nat × Option (List Byte)) :=
  (fcvOf o).map fun f => (f.seqstate, f.result, f.num.toNat, f.outbuf.readRange f.outlen.toNat)

/-- The fault a step stops with, if it does. -/
def faultOf (o : Host.Outcome State Fault Refusal) : Option Fault :=
  match o with
  | .next _ => none
  | .fault r => some r
  | .refused _ => none

/-! ### Well-formed syntax -/

theorem test_illformed_inbuf_place : (Place.inbuf 64).wellFormed = false := by decide
theorem test_wellformed_inbuf_place : (Place.inbuf 63).wellFormed = true := by decide
theorem test_illformed_outbuf_place : (Place.outbuf 128).wellFormed = false := by decide
theorem test_wellformed_outbuf_place : (Place.outbuf 127).wellFormed = true := by decide
theorem test_illformed_wr : (Line.wr (.inbuf 64) 0x41).wellFormed = false := by decide
theorem test_illformed_rd : (Line.rd (.outbuf 128)).wellFormed = false := by decide
theorem test_illformed_load : (Line.load (List.replicate 65 0x41)).wellFormed = false := by decide
theorem test_wellformed_load : (Line.load (List.replicate 64 0x41)).wellFormed = true := by decide
theorem test_illformed_arg16 : (Line.arg16 65536).wellFormed = false := by decide
theorem test_wellformed_arg16 : (Line.arg16 65535).wellFormed = true := by decide

/-! ### Operation words (R70), written out from the opcode map bit by bit -/

theorem test_word_configure : decode [0b00000001#8] = .ok .configure [] := by decide
theorem test_word_hexify : decode [0b00000010#8] = .ok .hexify [] := by decide
theorem test_word_unhexify : decode [0b00000011#8] = .ok .unhexify [] := by decide
theorem test_word_checksum : decode [0b00000100#8] = .ok .checksum [] := by decide
theorem test_word_encode : decode [0b00000101#8] = .ok .encode [] := by decide
theorem test_word_decode : decode [0b00000110#8] = .ok .decode [] := by decide
theorem test_word_send : decode [0b00000111#8] = .ok .send [] := by decide
theorem test_word_receive : decode [0b00001000#8] = .ok .receive [] := by decide
theorem test_word_query : decode [0b00001001#8] = .ok .query [] := by decide
theorem test_word_queryRetry : decode [0b00001010#8] = .ok .queryRetry [] := by decide
theorem test_word_command : decode [0b00001011#8] = .ok .command [] := by decide
/-- R72: the illegal words at the edges of the map. -/
theorem test_words_illegal :
    decode [0x00] = .badOpcode 0x00 ∧ decode [0x0C] = .badOpcode 0x0C ∧ decode [0xFF] = .badOpcode 0xFF := by
  decide
theorem test_tableWord : decodeTableWord 8 0x0A = some .queryRetry ∧ decodeTableWord 8 0x0C = none := by decide

/-! ### The atomic operations: vectors E1, E2 and L2.1 to L2.5 -/

theorem test_configure :
    fcvOf (exec .configure (machine { Fcv.reset with arg0 := 31, arg1 := 5, arg2 := 0xFF })) =
      some { Fcv.reset with
        arg0 := 31, arg1 := 5, arg2 := 0xFF, cmd := 0x01, seqstate := .done, result := .ok
        saddr := 31, smaxretry := 5, cken := true, sessionValid := true } := by decide
theorem test_configure_address_32 :
    ends (exec .configure (machine { Fcv.reset with arg0 := 32 })) =
      some (.failed, .rangeError, 0, some []) := by decide
theorem test_hexify_225 :
    ends (exec .hexify (machine { Fcv.reset with arg0 := 0xE1 })) =
      some (.done, .ok, 225, some [0x45, 0x31]) := by decide
theorem test_hexify_256 :
    ends (exec .hexify (machine { Fcv.reset with arg1 := 0x01 })) =
      some (.failed, .rangeError, 256, some []) := by decide
theorem test_unhexify_mixed_case :
    ends (exec .unhexify (machine (withInput Fcv.reset (text "Ff")))) =
      some (.done, .ok, 255, some []) := by decide
theorem test_unhexify_sign :
    ends (exec .unhexify (machine (withInput Fcv.reset (text "+1")))) =
      some (.failed, .formatError, 0, some []) := by decide
theorem test_checksum_reference :
    ends (exec .checksum (machine (withInput Fcv.reset (text "0ANAP100")))) =
      some (.done, .ok, 225, some (text "E1")) := by decide
theorem test_checksum_256 :
    ends (exec .checksum (machine (withInput Fcv.reset (text "0ANA")))) =
      some (.failed, .rangeError, 256, some []) := by decide
theorem test_encode_reference :
    ends (exec .encode (machine (withInput { Fcv.reset with arg0 := 10 } (text "NAP100")))) =
      some (.done, .ok, 225, some
        [0x40, 0x30, 0x41, 0x4E, 0x41, 0x50, 0x31, 0x30, 0x30, 0x45, 0x31, 0x0D]) := by decide
theorem test_encode_address_254 :
    ends (exec .encode (machine (withInput { Fcv.reset with arg0 := 254 } (text "ID")))) =
      some (.failed, .rangeError, 0, some []) := by decide
/-- X7: the address is checked before anything of INBUF is looked at. -/
theorem test_decode_address_first :
    ends (exec .decode (machine { Fcv.reset with arg0 := 40, inlen := 5 })) =
      some (.failed, .rangeError, 0, some []) := by decide
theorem test_decode_with_checksum :
    ends (exec .decode (machine (withInput { Fcv.reset with arg0 := 10, arg2 := 1 }
      (text "#0ANAP100E1" ++ [0x0D])))) = some (.done, .ok, 225, some (text "NAP100")) := by decide

/-! ### The session operations at issue: vectors L2.6 to L2.8 -/

theorem test_send_issue :
    ends (exec .send (machine (withInput (session 31 0 true) (text "OUT1")))) =
      some (.sending, .none, 160, some []) := by decide
theorem test_send_raw_256 :
    ends (exec .send (machine (withInput (session 31 0 true) (text "NAPUU")))) =
      some (.failed, .rangeError, 256, some []) := by decide
theorem test_receive_issue :
    fcvOf (exec .receive (machine (session 10 3 false))) =
      some { session 10 3 false with cmd := 0x08, seqstate := .awaitingReply, result := .none } := by decide
theorem test_receive_no_session :
    ends (exec .receive (machine Fcv.reset)) = some (.failed, .noSession, 0, some []) := by decide
theorem test_query_no_session_before_inlen :
    ends (exec .query (machine { Fcv.reset with inlen := 65 })) =
      some (.failed, .noSession, 0, some []) := by decide
theorem test_query_issue :
    (fcvOf (exec .query (machine (withInput (session 10 3 false) (text "ID?"))))).map
      (fun f => (f.seqstate, f.cmd, f.num.toNat, f.attempts.toNat)) = some (.sending, 0x09, 61, 1) := by decide
theorem test_queryRetry_issue :
    (fcvOf (exec .queryRetry (machine (withInput (session 10 3 true) (text "NAP???"))))).map
      (fun f => (f.seqstate, f.cmd, f.num.toNat, f.attempts.toNat)) = some (.sending, 0x0A, 13, 1) := by decide
theorem test_queryRetry_unwritten_operand :
    faultOf (exec .queryRetry (machine { session 10 3 true with inlen := 1 })) = some .operandNoValue := by decide
theorem test_command_issue :
    (fcvOf (exec .command (machine (withInput (session 10 3 false) (text "OUT1"))))).map
      (fun f => (f.seqstate, f.cmd, f.num.toNat, f.attempts.toNat)) = some (.sending, 0x0B, 154, 1) := by decide
theorem test_command_inlen_65 :
    ends (exec .command (machine { session 10 3 false with inlen := 65 })) =
      some (.failed, .rangeError, 0, some []) := by decide

/-! ### The sequencer, one step at a time: programs P1, P2 and P4 -/

theorem test_sending_ok :
    (match step (onLine (machine (sending (session 5 1 true) 0x0A (text "ID"))) [] [.ok]) with
      | .next t => t.line.outgoing = text "@05IDF2" ++ [0x0D] ∧ t.fcv.seqstate = .awaitingReply
      | .fault _ => False
      | .refused _ => False) := by
  constructor <;> decide
theorem test_hunt_discards_noise :
    fcvOf (step (onLine (machine (awaiting (session 10 3 true) 0x0A [] .hunt [])) [.byte 0xFF] [])) =
      some (awaiting (session 10 3 true) 0x0A [] .hunt []) := by decide
theorem test_terminator_decodes :
    ends (step (onLine (machine (awaiting (session 10 3 true) 0x0A [] .accum (text "#0ANAP100E1")))
      [.byte 0x0D] [])) = some (.decodingOk, .none, 225, some (text "NAP100")) := by decide
theorem test_terminator_checksum_error :
    (fcvOf (step (onLine (machine (awaiting (session 5 1 true) 0x0A [] .accum (text "#05ID57")))
      [.byte 0x0D] []))).map (fun f => (f.seqstate, f.lastfail, f.exp, f.act, f.num.toNat, f.failcnt.toNat)) =
      some (.decodeFailed, .checksumError, (0x46, 0x32), (0x35, 0x37), 242, 1) := by rfl
theorem test_accumulate_127_then_128 :
    (fcvOf (step (onLine (machine (awaiting (session 10 3 true) 0x0A [] .accum (List.replicate 127 0x23)))
      [.byte 0x41] []))).map (fun f => (f.seqstate, f.rxbuf.length)) = some (.awaitingReply, 128) ∧
    (fcvOf (step (onLine (machine (awaiting (session 10 3 true) 0x0A [] .accum (List.replicate 128 0x23)))
      [.byte 0x0D] []))).map (fun f => (f.seqstate, f.lastfail)) = some (.decodeFailed, .framingError) := by
  decide +kernel
theorem test_command_ok :
    (fcvOf (step (machine { awaiting (session 10 3 false) 0x0B [] .accum [] with
      seqstate := .decodingOk, outbuf := [(0, 0x4F), (1, 0x4B)], outlen := 2 }))).map
        (fun f => (f.seqstate, f.result, f.bool)) = some (.done, .ok, true) := by decide
theorem test_retry_then_exhausted :
    (fcvOf (step (machine { sending (session 5 1 true) 0x0A [] with
      seqstate := .decodeFailed, attempts := 1, failcnt := 1 }))).map (fun f => (f.seqstate, f.attempts.toNat)) =
        some (.sending, 2) ∧
    (fcvOf (step (machine { sending (session 5 1 true) 0x0A [] with
      seqstate := .decodeFailed, attempts := 2, failcnt := 2 }))).map (fun f => (f.seqstate, f.result)) =
        some (.exhausted, .nullResponse) := by decide

/-! ### The host bus and host programs: vectors of L2.9 and programs P1, P2 -/

theorem test_read_smaxretry_after_reset :
    busRead 0x06 State.reset = .next { State.reset with reads := [(0x06, 0x03)] } := by rfl
theorem test_read_inbuf_after_reset : faultOf (busRead 0x40 State.reset) = some (.inbufNoValue 0) := by decide
theorem test_write_read_only_ignored : busWrite 0x80 0x41 State.reset = .next State.reset := by rfl
theorem test_program_text :
    parseProgram ["  config 10, 3, 0   ; session 10".toList, "".toList, "load \"OUT1\"".toList,
      "op COMMAND".toList, "wait".toList, "rd OUTBUF+5".toList, "wr CMD, 0x0C".toList] =
      some [.config 10 3 0, .load (text "OUT1"), .op .command, .wait, .rd (.outbuf 5), .wr (.reg .cmd) 0x0C] := by
  decide
theorem test_program_text_refused : parseProgram ["wr INBUF+64, 1".toList] = none := by decide
theorem test_binary_form :
    binaryForm ((expandProgram [.config 10 3 1, .wait]).flatMap (eventAccesses 0)) =
      text "W 08 0A" ++ [0x0A] ++ text "W 09 03" ++ [0x0A] ++ text "W 0A 01" ++ [0x0A] ++ text "W 00 01" ++ [0x0A] ++
        text "R 01" ++ [0x0A] := by decide
/-- The step after `withFetchWord` runs the word's operation (R71). -/
theorem test_withFetchWord :
    ends (step (State.reset.withFetchWord 8 0x04)) = some (.done, .ok, 0, some [0x30, 0x30]) := by decide

/-! ### States that meet the statements' hypotheses, clause by clause -/

/-- 64 bytes of 0x04, which sum to 256 (L2.3). -/
def full : List Byte := List.replicate 64 0x04

/-- The session 10/3/1 with a payload of two bytes, BUSY = 0. -/
def ready : State := machine (withInput (session 10 3 true) (text "ID"))

theorem test_meets_DecodeEncodeAgree :
    Instr.wellFormed .command = true ∧ decode [0x0B, 0xFF] = .ok .command [0xFF] := by decide
theorem test_meets_DecodeReplyAcceptsExactly :
    decodeReply (text "#0A" ++ [0x0D]) 10 false = .ok [] ∧
    decodeReply (text "#0AOK0B" ++ [0x0D]) 10 true = .ok (text "OK") ∧ ckraw (hexField 10 ++ text "OK") ≠ 256 := by
  decide
theorem test_meets_DecodeReplyFailsInOrder_shape : ¬ ∃ body : List Byte, [0x23#8] = 0x23#8 :: body ++ [0x0D#8] := by
  rintro ⟨body, h⟩
  have := congrArg List.length h
  simp at this
theorem test_meets_DecodeReplyFailsInOrder_short :
    (text "0").length < 2 ∧ (text "0AX").length < 4 := by decide
theorem test_meets_DecodeReplyFailsInOrder_address :
    (true = true → 2 ≤ (text "71").length) ∧ [0x30#8, 0x42#8] ≠ hexField 10 ∧ [0x30#8, 0x61#8] ≠ hexField 10 := by
  decide
theorem test_meets_DecodeReplyFailsInOrder_range : ckraw (hexField 10 ++ text "NA") = 256 := by decide
theorem test_meets_DecodeReplyFailsInOrder_checksum :
    ckraw (hexField 5 ++ text "ID") ≠ 256 ∧
      [0x35#8, 0x37#8] ≠ hexField (BitVec.ofNat 8 (ckraw (hexField 5 ++ text "ID"))) := by decide
theorem test_meets_EncodeCommandBuildsLayout :
    ckraw (hexField 10 ++ text "NAP100") ≠ 256 ∧ ckraw (hexField 31 ++ text "NAPUU") = 256 := by decide
theorem test_meets_HexifyByteTwoDigits : 255 < 256 ∧ 255 ≤ 255 ∧ hexifyByte 255 = .ok (text "FF") := by decide
theorem test_meets_UnhexifyAcceptsExactly :
    (¬ ∃ n, unhexify (text "0G") = .ok n) ∧ unhexify (text "fF") = .ok 255 := by
  refine ⟨?_, by decide⟩
  rintro ⟨n, h⟩
  exact absurd (show unhexify (text "0G") = .err .formatError noInfo by decide) (by rw [h]; exact nofun)
theorem test_meets_HexRoundTrips :
    255 ≤ 255 ∧ (0x41 ≤ (0x46#8).toNat ∧ (0x46#8).toNat ≤ 0x46) ∧ (0x30 ≤ (0x30#8).toNat ∧ (0x30#8).toNat ≤ 0x39) ∧
      unhexify [0x46, 0x30] = .ok 240 := by decide
theorem test_meets_ChecksumClosedForm : cksumSum [0x01, 0xFF] % 256 = 0 ∧ cksumSum [0x02, 0xFF] % 256 ≠ 0 := by decide
theorem test_meets_SingleByteChangeChangesChecksum : (0x41#8 : Byte) ≠ 0x42#8 := by decide
theorem test_meets_ConfigureResult :
    let s := fun a : Byte => machine { Fcv.reset with arg0 := a }
    (s 31).fcv.busy = false ∧ IsDeviceAddress (s 31).params (s 31).fcv.arg0 ∧ (s 255).fcv.busy = false ∧
      IsDeviceAddress (s 255).params (s 255).fcv.arg0 ∧ (s 32).fcv.busy = false ∧
      ¬ IsDeviceAddress (s 32).params (s 32).fcv.arg0 ∧ ¬ IsDeviceAddress (s 254).params (s 254).fcv.arg0 := by decide
theorem test_meets_ConfigureResult_broadcast :
    32 ≤ (32#8).toNat ∧ broadcastAddr { broadcastOffset := 0 } = 32 ∧ broadcastAddr { broadcastOffset := 223 } = 255 := by
  decide
theorem test_meets_HexifyResult :
    let s := machine { Fcv.reset with arg0 := 255 }
    let u := machine { Fcv.reset with arg1 := 1 }
    s.fcv.busy = false ∧ hexifyByte (s.fcv.arg1.toNat * 256 + s.fcv.arg0.toNat) = .ok (text "FF") ∧
      u.fcv.busy = false ∧ 255 < u.fcv.arg1.toNat * 256 + u.fcv.arg0.toNat := by decide
theorem test_meets_UnhexifyResult :
    let s := fun x : List Byte => withInput Fcv.reset x
    (s (text "e1")).busy = false ∧ OperandIs (s (text "e1")) (text "e1") ∧ unhexify (text "e1") = .ok 225 ∧
    (s []).busy = false ∧ OperandIs (s []) [] ∧ unhexify [] = .err .formatError noInfo ∧
    Fcv.reset.busy = false ∧ 64 < ({ Fcv.reset with inlen := 65 } : Fcv).inlen.toNat := by decide
theorem test_meets_ChecksumResult :
    (withInput Fcv.reset full).busy = false ∧ OperandIs (withInput Fcv.reset full) full ∧ ckraw full = 256 ∧
    OperandIs (withInput Fcv.reset []) [] ∧ ckraw [] ≠ 256 := by decide +kernel
theorem test_meets_EncodeResult :
    let s := fun (a : Byte) (x : List Byte) => machine (withInput { Fcv.reset with arg0 := a } x)
    (s 31 full).fcv.busy = false ∧ OperandIs (s 31 full).fcv full ∧
    IsDeviceAddress (s 31 full).params (s 31 full).fcv.arg0 ∧
    ckraw (hexField (s 31 full).fcv.arg0 ++ full) ≠ 256 ∧
    ¬ IsDeviceAddress (s 32 full).params (s 32 full).fcv.arg0 ∧ OperandIs (s 32 full).fcv full ∧
    (s 10 (text "NA")).fcv.busy = false ∧ OperandIs (s 10 (text "NA")).fcv (text "NA") ∧
    IsDeviceAddress (s 10 (text "NA")).params (s 10 (text "NA")).fcv.arg0 ∧
    ckraw (hexField (s 10 (text "NA")).fcv.arg0 ++ text "NA") = 256 := by decide +kernel
theorem test_meets_DecodeResult :
    let s := fun (c : Byte) (x : List Byte) => machine (withInput { Fcv.reset with arg0 := 10, arg2 := c } x)
    (s 0 (text "#0A" ++ [0x0D])).fcv.busy = false ∧
    OperandIs (s 0 (text "#0A" ++ [0x0D])).fcv (text "#0A" ++ [0x0D]) ∧
    IsDeviceAddress (s 0 (text "#0A" ++ [0x0D])).params (s 0 (text "#0A" ++ [0x0D])).fcv.arg0 ∧
    decodeReply (text "#0A" ++ [0x0D]) 10 ((0x00#8).getLsbD 0) = .ok [] ∧
    OperandIs (s 1 (text "#0ANA00" ++ [0x0D])).fcv (text "#0ANA00" ++ [0x0D]) ∧
    decodeReply (text "#0ANA00" ++ [0x0D]) 10 ((0x01#8).getLsbD 0) = .err .rangeError (numInfo 256) ∧
    OperandIs (s 1 (text "#0A")).fcv (text "#0A") ∧
    decodeReply (text "#0A") 10 ((0x01#8).getLsbD 0) = .err .framingError noInfo ∧ RetryEligible .framingError ∧
    RetryEligible .addressMismatch ∧ RetryEligible .checksumError := by decide
theorem test_meets_DecodeResult_address :
    let s := machine (withInput { Fcv.reset with arg0 := 32 } (text "#0A"))
    s.fcv.busy = false ∧ OperandIs s.fcv (text "#0A") ∧ ¬ IsDeviceAddress s.params s.fcv.arg0 := by decide
theorem test_meets_AddressCheckPrecedesOperand :
    let s := machine { Fcv.reset with arg0 := 32, inlen := 64 }
    s.fcv.busy = false ∧ s.fcv.inlen.toNat ≤ 64 ∧ ¬ IsDeviceAddress s.params s.fcv.arg0 := by decide
theorem test_meets_SendingOperationsIssue :
    IsSendingOp .send ∧ IsSendingOp .query ∧ IsSendingOp .queryRetry ∧ IsSendingOp .command ∧
    ready.fcv.busy = false ∧ ready.fcv.sessionValid = true ∧ OperandIs ready.fcv (text "ID") ∧
    ckraw (hexField 10 ++ text "ID") ≠ 256 ∧ OperandIs (withInput (session 10 3 true) (text "NA")) (text "NA") ∧
    ckraw (hexField 10 ++ text "NA") = 256 ∧ 64 < ({ session 10 3 true with inlen := 65 } : Fcv).inlen.toNat := by
  decide
theorem test_meets_ReceiveIssue : (session 10 0 false).busy = false ∧ (session 10 0 false).sessionValid = true := by
  decide
theorem test_meets_NoSessionEndsAtIssue :
    IsSessionOp .receive ∧ IsSessionOp .send ∧ Fcv.reset.busy = false ∧ Fcv.reset.sessionValid = false := by decide
theorem test_meets_IllegalWordEndsWithBadOpcode :
    Fcv.reset.busy = false ∧ (0x00#8).toNat = 0 ∧ 0x0C ≤ (0x0C#8).toNat ∧ ¬ 0x0C ≤ (0x0B#8).toNat := by decide
theorem test_meets_HostWriteWhileBusyRefused : (sending (session 10 3 true) 0x0A []).busy = true := by decide
theorem test_meets_UnwrittenOperandFaults :
    let f := { session 10 3 true with inlen := 64, inbuf := Memory.writeFrom [] 0 (List.replicate 63 0x41) }
    f.busy = false ∧ f.inlen.toNat ≤ 64 ∧ 63 < f.inlen.toNat ∧ f.inbuf.read 63 = none ∧
      f.sessionValid = true ∧ IsSendingOp .command ∧ IsDeviceAddress defaultParams f.arg0 := by decide +kernel
theorem test_meets_SequencerMovesOnlyWhileBusy : State.reset.fcv.busy = false ∧ State.reset.schedule = [] := by decide
theorem test_meets_SendingStep :
    let f := sending (session 10 3 true) 0x07 (text "ID")
    f.seqstate = .sending ∧ OperandIs f (text "ID") ∧ ckraw (hexField f.saddr ++ text "ID") ≠ 256 ∧
      (onLine (machine f) [] [.ok]).nextTx = .ok ∧
      (onLine (machine f) [] [.transportFault 0]).nextTx = .transportFault 0 := by decide
theorem test_meets_AwaitingStopsOnTimeoutAndFault :
    let f := awaiting (session 10 3 true) 0x08 [] .hunt []
    f.seqstate = .awaitingReply ∧ (onLine (machine f) [.timeout] []).nextRx = .timeout ∧
      (onLine (machine f) [.transportFault] []).nextRx = .transportFault := by decide
theorem test_meets_HuntDiscardsUpToHash :
    let s := onLine (machine (awaiting (session 10 3 true) 0x08 [] .hunt [])) [.byte 0x23] []
    s.fcv.seqstate = .awaitingReply ∧ s.fcv.rxphase = .hunt ∧ s.nextRx = .byte 0x23 := by decide
theorem test_meets_AccumulateOrOverflow :
    let s := onLine (machine (awaiting (session 10 3 true) 0x08 [] .accum (List.replicate 127 0x23))) [.byte 0x23] []
    let u := onLine (machine (awaiting (session 10 3 true) 0x08 [] .accum (List.replicate 128 0x23))) [.byte 0x0D] []
    s.fcv.seqstate = .awaitingReply ∧ s.fcv.rxphase = .accum ∧ s.nextRx = .byte 0x23 ∧ s.fcv.rxbuf.length = 127 ∧
      u.fcv.seqstate = .awaitingReply ∧ u.fcv.rxphase = .accum ∧ u.nextRx = .byte 0x0D ∧ u.fcv.rxbuf.length = 128 := by
  decide +kernel
theorem test_meets_DecodeAtTerminator :
    let s := onLine (machine (awaiting (session 10 3 true) 0x08 [] .accum
      (text "#0A" ++ List.replicate 124 0x41))) [.byte 0x0D] []
    s.fcv.seqstate = .awaitingReply ∧ s.fcv.rxphase = .accum ∧ s.nextRx = .byte 0x0D ∧ s.fcv.rxbuf.length = 127 ∧
      decodeReply (s.fcv.rxbuf ++ [0x0D]) 11 true =
        .err .addressMismatch { exp := (0x30, 0x42), act := (0x30, 0x41), num := 0 } ∧
      decodeReply (text "#0AOK0B" ++ [0x0D]) 10 true = .ok (text "OK") ∧
      decodeReply (text "#0ANA00" ++ [0x0D]) 10 true = .err .rangeError (numInfo 256) := by decide +kernel
theorem test_meets_DecodingOkStep :
    let f := { awaiting (session 10 3 false) 0x0B [] .accum [] with
      seqstate := .decodingOk, outbuf := Memory.writeFrom [] 0 (text "Err"), outlen := 3 }
    f.seqstate = .decodingOk ∧ (text "Err").length = f.outlen.toNat ∧ HoldsBytes f.outbuf (text "Err") := by decide
theorem test_meets_DecodeFailedStep :
    let f := { sending (session 10 3 false) 0x0A [] with seqstate := .decodeFailed, attempts := 3, failcnt := 3 }
    f.seqstate = .decodeFailed ∧ f.cmd = 0x0A ∧ f.attempts.toNat < f.smaxretry.toNat + 1 ∧
      ¬ ({ f with attempts := 4 } : Fcv).attempts.toNat < f.smaxretry.toNat + 1 := by decide
theorem test_meets_HostReadsTheRegisterMap :
    let f := { Fcv.reset with inbuf := [(0, 0x41), (63, 0x42)], outbuf := [(0, 0x43), (127, 0x44)], outlen := 128 }
    f.inbuf.read 0 = some 0x41 ∧ (0x40#8).toNat = 0x40 + 0 ∧ f.inbuf.read 63 = some 0x42 ∧
      (0x7F#8).toNat = 0x40 + 63 ∧ f.outbuf.read 0 = some 0x43 ∧ 0 < f.outlen.toNat ∧ (0x80#8).toNat = 0x80 + 0 ∧
      f.outbuf.read 127 = some 0x44 ∧ 127 < f.outlen.toNat ∧ (0xFF#8).toNat = 0x80 + 127 ∧
      0x17 ≤ (0x17#8).toNat ∧ (0x3F#8).toNat ≤ 0x3F := by decide
theorem test_meets_BufferReadsWithoutValue :
    let f := { Fcv.reset with outbuf := [(2, 0x43)], outlen := 2 }
    f.inbuf.read 63 = none ∧ (0x7F#8).toNat = 0x40 + 63 ∧ f.outbuf.read 127 = none ∧ (0xFF#8).toNat = 0x80 + 127 ∧
      f.outbuf.read 2 = some 0x43 ∧ f.outlen.toNat ≤ 2 ∧ (0x82#8).toNat = 0x80 + 2 := by decide
theorem test_meets_ReadsHaveNoSideEffect :
    fcvOf (step (State.reset.before (.access (.read 0x3F)) [])) = some Fcv.reset := by rfl
theorem test_meets_HostWritesStoreOrAreIgnored :
    Fcv.reset.busy = false ∧ (0x01 ≤ (0x01#8).toNat ∧ (0x07#8).toNat ≤ 0x07) ∧ (0x0C ≤ (0x0C#8).toNat) ∧
      (0x3F#8).toNat ≤ 0x3F ∧ 0x80 ≤ (0x80#8).toNat ∧ (0x40#8).toNat = 0x40 + 0 ∧ (0x7F#8).toNat = 0x40 + 63 := by
  decide
theorem test_meets_StepRunsDecodedInstruction :
    decode [0x01] = .ok .configure [] ∧ decodeTableWord 8 0x10B = some .command := by decide
theorem test_meets_WaitPollsUntilIdle :
    let s := onLine (machine (awaiting (session 10 3 true) 0x08 [] .hunt [])) [.byte 0x00] []
    s.fcv.busy = true ∧ (fcvOf (step (s.before .seq []))).isSome = true ∧ State.reset.fcv.busy = false := by decide
theorem test_meets_ResetFromAnyState :
    let f := sending (session 5 1 true) 0x0A (text "ID")
    f.seqstate = .sending ∧ f.commandFrame = some (.ok (text "@05IDF2" ++ [0x0D])) ∧ Fcv.reset.seqstate ≠ .sending := by
  decide

/-- The invariant holds in a state of QUERY_RETRY's first or second attempt (session 10/3/1, payload "ID"), in each of
the four busy states. -/
def busyAt (st : SeqState) (held : List Byte) (fails : Half) : Fcv :=
  { sending (session 10 3 true) 0x0A (text "ID") with
    seqstate := st, rxphase := .accum, rxbuf := held, failcnt := fails, lastfail := .framingError }

theorem busyAt_invariant (st : SeqState) (held : List Byte) (fails : Half)
    (h : (st = .sending ∨ st = .decodingOk ∨ st = .awaitingReply) ∧ fails = 0 ∨ st = .decodeFailed ∧ fails = 1)
    (hh : held = text "#0A") : MachineInv (machine (busyAt st held fails)) := by
  have hr : ∃ i, IsSessionOp i ∧ i ≠ .send ∧ (0x0A : Byte) = opcode i := ⟨.queryRetry, by decide⟩
  have hs : ∃ i, IsSendingOp i ∧ (0x0A : Byte) = opcode i := ⟨.queryRetry, by decide⟩
  have hf : ∃ frame, (busyAt .sending [] 0).commandFrame = some (.ok frame) :=
    ⟨text "@0AIDFE" ++ [0x0D], by decide⟩
  subst hh
  rcases h with ⟨rfl | rfl | rfl, rfl⟩ | ⟨rfl, rfl⟩ <;> constructor <;>
    first
      | decide
      | exact fun _ => hr
      | exact fun _ => hs
      | exact fun _ _ => hf

theorem test_meets_StepKeepsInvariant :
    ∃ t, MachineInv (onLine (machine (busyAt .sending (text "#0A") 0)) [] [.ok]) ∧
      step (onLine (machine (busyAt .sending (text "#0A") 0)) [] [.ok]) = .next t :=
  ⟨_, busyAt_invariant .sending _ 0 (by decide) rfl, rfl⟩
theorem test_meets_BusySequencerAlwaysMoves :
    MachineInv (machine (busyAt .decodingOk (text "#0A") 0)) ∧
      (machine (busyAt .decodingOk (text "#0A") 0)).fcv.busy = true :=
  ⟨busyAt_invariant .decodingOk _ 0 (by decide) rfl, by decide⟩
theorem test_meets_SequencerTransitions_sending :
    ∃ t, MachineInv (onLine (machine (busyAt .sending (text "#0A") 0)) [] [.transportFault 1]) ∧
      step ((onLine (machine (busyAt .sending (text "#0A") 0)) [] [.transportFault 1]).before .seq []) = .next t :=
  ⟨_, busyAt_invariant .sending _ 0 (by decide) rfl, rfl⟩
theorem test_meets_SequencerTransitions_awaitingReply :
    ∃ t, MachineInv (onLine (machine (busyAt .awaitingReply (text "#0A") 0)) [.byte 0x41] []) ∧
      step ((onLine (machine (busyAt .awaitingReply (text "#0A") 0)) [.byte 0x41] []).before .seq []) = .next t :=
  ⟨_, busyAt_invariant .awaitingReply _ 0 (by decide) rfl, rfl⟩
theorem test_meets_SequencerTransitions_decodingOk :
    ∃ t, MachineInv (machine (busyAt .decodingOk (text "#0A") 0)) ∧
      step ((machine (busyAt .decodingOk (text "#0A") 0)).before .seq []) = .next t :=
  ⟨_, busyAt_invariant .decodingOk _ 0 (by decide) rfl, rfl⟩
theorem test_meets_SequencerTransitions_decodeFailed :
    ∃ t, MachineInv (machine (busyAt .decodeFailed (text "#0A") 1)) ∧
      step ((machine (busyAt .decodeFailed (text "#0A") 1)).before .seq []) = .next t :=
  ⟨_, busyAt_invariant .decodeFailed _ 1 (by decide) rfl, rfl⟩
theorem test_meets_IssueTransitions :
    ∃ t, step (ready.before (.access (.write 0x00 0x0A)) []) = .next t := ⟨_, rfl⟩
theorem test_meets_IdleOnlyByReset :
    ∃ t, step (ready.before (.reset 0) []) = .next t ∧ t.fcv.seqstate = .idle := ⟨_, rfl, rfl⟩
theorem test_meets_SessionChangesOnlyByConfigure :
    ∃ t, step (State.reset.before (.access (.write 0x00 0x01)) []) = .next t ∧ t.fcv.sessionValid = true :=
  ⟨_, rfl, rfl⟩
theorem test_meets_OperandsChangeOnlyByHost :
    ∃ t, step (State.reset.before (.access (.write 0x7F 0x41)) []) = .next t ∧
      (∀ n rest, (State.reset.before (.access (.write 0x7F 0x41)) []).schedule ≠ .reset n :: rest) ∧
      t.fcv.inbuf.read 63 ≠ State.reset.fcv.inbuf.read 63 := ⟨_, rfl, by simp [State.before], by decide⟩
theorem test_meets_TransportMovesOnlyBySequencerOrReset_read :
    ∃ t, step (onLine (machine (busyAt .awaitingReply (text "#0A") 0)) [.byte 0x41] []) = .next t ∧ t.line.rx = [] :=
  ⟨_, rfl, rfl⟩
theorem test_meets_TransportMovesOnlyBySequencerOrReset_write :
    ∃ t, step (onLine (machine (busyAt .sending (text "#0A") 0)) [] [.ok]) = .next t ∧ t.line.tx = [] ∧
      t.line.sent = [.whole (text "@0AIDFE" ++ [0x0D])] := ⟨_, rfl, rfl, by decide⟩
theorem test_meets_TransportMovesOnlyBySequencerOrReset_reset :
    ∃ t, step ((machine (busyAt .sending (text "#0A") 0)).before (.reset 3) []) = .next t ∧
      t.line.sent = [.cutByReset (text "@0AIDFE" ++ [0x0D]) 3] := ⟨_, rfl, by decide⟩
theorem test_meets_CanonicalBuffersAreEqual :
    Memory.wf 64 [(0, 0x41), (63, 0x42)] ∧ Memory.wf 64 (Memory.write [(63, 0x42)] 0 0x41) ∧
      ∀ i, i < 64 → Memory.read [(0, 0x41), (63, 0x42)] i = Memory.read (Memory.write [(63, 0x42)] 0 0x41) i := by
  decide
theorem test_meets_SendEndsAfterOneWrite :
    let s := fun a : TxAnswer => onLine ready [] [a]
    (s .ok).fcv.busy = false ∧ (s .ok).fcv.sessionValid = true ∧ (s .ok).schedule = [] ∧
      OperandIs (s .ok).fcv (text "ID") ∧ ckraw (hexField (s .ok).fcv.saddr ++ text "ID") ≠ 256 ∧
      (s .ok).nextTx = .ok ∧ (s (.transportFault 3)).nextTx = .transportFault 3 := by decide
theorem test_meets_ReceiveDeliversReply :
    let s := onLine ready (answers ([0x00, 0x0D] ++ (text "#0AOK0B" ++ [0x0D])) ++ [.timeout]) []
    s.fcv.busy = false ∧ s.fcv.sessionValid = true ∧ s.schedule = [] ∧ 0x23#8 ∉ [0x00#8, 0x0D#8] ∧
      0x0D#8 ∉ text "OK" ∧ (replyLayout s.fcv.saddr (text "OK") s.fcv.cken).length ≤ 128 ∧
      ckraw (hexField s.fcv.saddr ++ text "OK") ≠ 256 ∧
      s.line.rx = answers ([0x00, 0x0D] ++ replyLayout s.fcv.saddr (text "OK") s.fcv.cken) ++ [.timeout] := by decide
theorem test_meets_FirstReplyEndsRequest :
    let s := onLine ready (answers (text "#0AOK0B" ++ [0x0D])) [.ok]
    s.fcv.busy = false ∧ s.fcv.sessionValid = true ∧ s.schedule = [] ∧ OperandIs s.fcv (text "ID") ∧
      ckraw (hexField s.fcv.saddr ++ text "ID") ≠ 256 ∧ 0x0D#8 ∉ text "OK" ∧
      (replyLayout s.fcv.saddr (text "OK") s.fcv.cken).length ≤ 128 ∧
      ckraw (hexField s.fcv.saddr ++ text "OK") ≠ 256 ∧
      s.line.rx = answers ([] ++ replyLayout s.fcv.saddr (text "OK") s.fcv.cken) ++ [] ∧
      s.line.tx = TxAnswer.ok :: [] := by decide

/-- A candidate frame that fails to decode in the session of `ready`: another address. -/
def wrong : List Byte := text "#0BOK00" ++ [0x0D]

theorem wrong_candidate : CandidateFrame wrong := ⟨by decide, text "0BOK00", by decide, by decide⟩

theorem wrong_fails : decodeReply wrong ready.fcv.saddr ready.fcv.cken =
    .err .addressMismatch { exp := (0x30, 0x41), act := (0x30, 0x42), num := 0 } := by decide

theorem test_meets_FailingReplyEndsWithoutRetry :
    let s := onLine ready (answers ([0x00, 0x0D] ++ wrong)) [.ok]
    OperandIs s.fcv (text "ID") ∧ ckraw (hexField s.fcv.saddr ++ text "ID") ≠ 256 ∧ s.nextTx = .ok ∧
      s.fcv.busy = false ∧ s.fcv.sessionValid = true ∧ s.schedule = [] ∧ 0x23#8 ∉ [0x00#8, 0x0D#8] ∧
      CandidateFrame wrong ∧ RetryEligible .addressMismatch ∧
      decodeReply wrong s.fcv.saddr s.fcv.cken =
        .err .addressMismatch { exp := (0x30, 0x41), act := (0x30, 0x42), num := 0 } ∧
      s.line.rx = answers ([0x00, 0x0D] ++ wrong) ++ [] :=
  ⟨by decide, by decide, by decide, by decide, by decide, by decide, by decide, wrong_candidate, by decide,
    wrong_fails, by decide⟩
theorem test_meets_RetriesExhaustExactly :
    let s := onLine ready (answers (List.replicate 4 wrong).flatten) (List.replicate 4 .ok)
    s.fcv.busy = false ∧ s.fcv.sessionValid = true ∧ s.schedule = [] ∧ OperandIs s.fcv (text "ID") ∧
      ckraw (hexField s.fcv.saddr ++ text "ID") ≠ 256 ∧
      (List.replicate 4 wrong).length = s.fcv.smaxretry.toNat + 1 ∧
      (∀ c ∈ List.replicate 4 wrong, FailingFrame s.fcv c) ∧
      s.line.rx = answers (List.replicate 4 wrong).flatten ++ [] ∧
      s.line.tx = List.replicate (List.replicate 4 wrong).length TxAnswer.ok ++ [] :=
  ⟨by decide, by decide, by decide, by decide, by decide, by decide,
    fun c hc => by
      rw [List.eq_of_mem_replicate hc]
      exact ⟨wrong_candidate, _, _, by decide, wrong_fails⟩,
    by decide, by decide⟩
theorem test_meets_RetriesRecover :
    let s := onLine ready (answers ((List.replicate 3 wrong).flatten ++ (text "#0AOK0B" ++ [0x0D])))
      (List.replicate 4 .ok)
    s.fcv.busy = false ∧ s.fcv.sessionValid = true ∧ s.schedule = [] ∧ OperandIs s.fcv (text "ID") ∧
      ckraw (hexField s.fcv.saddr ++ text "ID") ≠ 256 ∧
      (List.replicate 3 wrong).length ≤ s.fcv.smaxretry.toNat ∧
      (∀ c ∈ List.replicate 3 wrong, FailingFrame s.fcv c) ∧ 0x0D#8 ∉ text "OK" ∧
      (replyLayout s.fcv.saddr (text "OK") s.fcv.cken).length ≤ 128 ∧
      ckraw (hexField s.fcv.saddr ++ text "OK") ≠ 256 ∧
      s.line.rx =
        answers ((List.replicate 3 wrong).flatten ++ replyLayout s.fcv.saddr (text "OK") s.fcv.cken) ++ [] ∧
      s.line.tx = List.replicate ((List.replicate 3 wrong).length + 1) TxAnswer.ok ++ [] :=
  ⟨by decide, by decide, by decide, by decide, by decide, by decide,
    fun c hc => by
      rw [List.eq_of_mem_replicate hc]
      exact ⟨wrong_candidate, _, _, by decide, wrong_fails⟩,
    by decide, by decide, by decide, by decide, by decide⟩
theorem test_meets_FirstWriteFaultEndsWithoutRetry :
    let s := onLine ready [] [.transportFault 0]
    s.fcv.busy = false ∧ s.fcv.sessionValid = true ∧ s.schedule = [] ∧ OperandIs s.fcv (text "ID") ∧
      ckraw (hexField s.fcv.saddr ++ text "ID") ≠ 256 ∧ s.nextTx = .transportFault 0 := by decide
/-- A transport that answers every read with `#` is fair, and never times out. -/
theorem hashes_fair : FairAnswers fun _ => .byte 0x23 := fun n => ⟨n, Nat.le_refl n, .inl rfl⟩

theorem test_meets_OperationEndsOnFairTransport_fair :
    let s := machine (busyAt .awaitingReply (text "#0A") 0)
    MachineInv s ∧ s.fcv.busy = true ∧ s.schedule = [] ∧ FairAnswers fun _ => .byte 0x23 :=
  ⟨busyAt_invariant .awaitingReply _ 0 (by decide) rfl, by decide, by decide, hashes_fair⟩
theorem test_meets_OperationEndsOnFairTransport :
    let s := onLine (machine (busyAt .awaitingReply (text "#0A") 0)) (answers [0x41] ++ [.timeout]) []
    MachineInv s ∧ s.fcv.busy = true ∧ s.schedule = [] ∧ s.line.rx = answers [0x41] ++ .timeout :: [] :=
  ⟨busyAt_invariant .awaitingReply _ 0 (by decide) rfl, by decide, by decide, by decide⟩
end Sys2Proof.Tests
end

section
/-! What an issue can do, said once: the ways a codec operation ends, the ways any operation's issue ends, and the
byte a host write stores. The proofs about state (spec 10_state.md) split along these cases. -/

namespace Sys2Proof.Machine

variable (s t : State) (f g : Fcv)

/-! ### Operation words and host addresses -/

theorem decodeByte_opcode (i : Instr) : decodeByte (opcode i) = some i := by
  cases i <;> rfl

/-- Different operations have different words (R70). -/
@[simp] theorem opcode_inj (i j : Instr) : opcode i = opcode j ↔ i = j := by
  refine ⟨fun h => ?_, congrArg opcode⟩
  have hd : decodeByte (opcode i) = decodeByte (opcode j) := congrArg decodeByte h
  simpa only [decodeByte_opcode, Option.some.injEq] using hd

/-- The addresses of INBUF (R49). -/
theorem locate_eq_inbuf (a : Byte) (i : Nat) : locate a = .inbuf i ↔ i < 64 ∧ a.toNat = 0x40 + i := by
  unfold locate
  split
  case h_24 =>
    split_ifs <;> simp only [Location.inbuf.injEq, false_iff] <;> omega
  all_goals simp only [reduceCtorEq, false_iff]; omega

/-- The addresses of OUTBUF (R49). -/
theorem locate_eq_outbuf (a : Byte) (i : Nat) : locate a = .outbuf i ↔ a.toNat = 0x80 + i := by
  unfold locate
  split
  case h_24 =>
    split_ifs <;> simp only [Location.outbuf.injEq, false_iff] <;> omega
  all_goals simp only [reduceCtorEq, false_iff]; omega

/-- All that storing a byte can do (R50): one operand register, one byte of INBUF, or nothing. -/
theorem Fcv.storeByte_cases (l : Location) (v : Byte) :
    f.storeByte l v = f ∨
    (l = .reg .arg0 ∧ f.storeByte l v = { f with arg0 := v }) ∨
    (l = .reg .arg1 ∧ f.storeByte l v = { f with arg1 := v }) ∨
    (l = .reg .arg2 ∧ f.storeByte l v = { f with arg2 := v }) ∨
    (l = .reg .inlen ∧ f.storeByte l v = { f with inlen := v }) ∨
    (∃ i, l = .inbuf i ∧ f.storeByte l v = { f with inbuf := f.inbuf.write i v }) := by
  unfold Fcv.storeByte
  split <;> simp

/-! ### Codec operations -/

/-- How a codec operation's own rule leaves FCV (R98 to R102): an error raised, a number, a byte string in OUTBUF,
or a frame that does not decode. -/
inductive CodecEnd (f : Fcv) : Fcv → Prop
  | raised (n : Half) (c : ResultCode) (hc : c ≠ .none) : CodecEnd f (Fcv.raise { f with num := n } c none)
  | number (n : Half) : CodecEnd f (Fcv.finish { f with num := n } .done .ok)
  | output (n : Half) (r : List Byte) (hr : r.length ≤ 128) :
      CodecEnd f ((Fcv.putOut { f with num := n } r).finish .done .ok)
  | undecoded (c : ResultCode) (info : ErrInfo) (hc : RetryEligible c) :
      CodecEnd f ((f.storeFailure c info).finish .failed c)

theorem hexifyBody_end : CodecEnd f (hexifyBody f) := by
  unfold hexifyBody hexifyByte
  by_cases h : 255 < f.hexifyOperand
  · simp only [if_pos h]
    exact .raised _ _ (by decide)
  · simp only [if_neg h]
    exact .output _ _ (by simp)

/-- The only error of `unhexify` (R87). -/
theorem unhexify_err (x : List Byte) (c : ResultCode) (info : ErrInfo) (h : unhexify x = .err c info) :
    c = .formatError := by
  unfold unhexify at h
  split at h
  · split at h
    · cases h
    · cases h; rfl
  · cases h; rfl

theorem unhexifyBody_end (x : List Byte) : CodecEnd f (unhexifyBody f x) := by
  unfold unhexifyBody
  cases h : unhexify x with
  | ok n => exact .number _
  | err c info =>
    obtain rfl := unhexify_err x c info h
    exact .raised f.num _ (by decide)

theorem checksumBody_end (x : List Byte) : CodecEnd f (checksumBody f x) := by
  unfold checksumBody
  rw [checksum_eq]
  by_cases h : ckraw x = 256
  · simp only [if_pos h]
    exact .raised _ _ (by decide)
  · simp only [if_neg h]
    exact .output _ _ (by simp)

theorem encodeBody_end (x : List Byte) (hx : OperandIs f x) : CodecEnd f (encodeBody f x) := by
  obtain ⟨hlen, hxlen, -⟩ := hx
  unfold encodeBody
  rw [encodeCommand_eq]
  by_cases h : ckraw (hexField f.arg0 ++ x) = 256
  · simp only [if_pos h]
    exact .raised _ _ (by decide)
  · simp only [if_neg h]
    exact .output _ _ (by simp; omega)

/-- A decoded reply is stored as an output (R102, R117). -/
theorem Fcv.storeReply_eq (frame p : List Byte) (cken : Bool) :
    ∃ n : Half, f.storeReply frame p cken = Fcv.putOut { f with num := n } p := by
  cases cken with
  | true => exact ⟨_, rfl⟩
  | false => exact ⟨f.num, rfl⟩

theorem decodeBody_end (x : List Byte) (hx : OperandIs f x) : CodecEnd f (decodeBody f x) := by
  obtain ⟨hlen, hxlen, -⟩ := hx
  unfold decodeBody
  cases h : decodeReply x f.arg0 f.ckenOperand with
  | ok p =>
    have hp := decodeReply_ok_length _ _ _ _ h
    obtain ⟨n, hn⟩ := f.storeReply_eq x p f.ckenOperand
    simp only [hn]
    exact .output n p (by omega)
  | err c info =>
    rcases decodeReply_err _ _ _ _ _ h with ⟨rfl, rfl⟩ | hc
    · exact .raised _ _ (by decide)
    · have hne : c ≠ .rangeError := by rcases hc with rfl | rfl | rfl <;> decide
      simp only [if_neg hne]
      exact .undecoded c info hc

/-- An operation that reads its operand and runs a codec rule on it ends as a codec operation (R74). -/
theorem Fcv.withOperand_end (body : List Byte → Fcv) (hbody : ∀ x, OperandIs f x → CodecEnd f (body x))
    (h : f.withOperand (fun x => .next (body x)) = .next g) : CodecEnd f g := by
  rcases f.withOperand_next g _ h with ⟨-, rfl⟩ | ⟨x, hx, hg⟩
  · exact .raised f.num _ (by decide)
  · simp only [Host.Outcome.next.injEq] at hg
    exact hg ▸ hbody x hx

/-- The same where the address operand is checked before the operand is read (R101, R102). -/
theorem Fcv.withAddressedOperand_end (p : Params) (body : List Byte → Fcv)
    (hbody : ∀ x, OperandIs f x → CodecEnd f (body x))
    (h : f.withAddressedOperand p (fun x => .next (body x)) = .next g) : CodecEnd f g := by
  by_cases hl : 64 < f.inlen.toNat
  · rw [f.withAddressedOperand_long p _ hl, Host.Outcome.next.injEq] at h
    exact h ▸ .raised f.num _ (by decide)
  · by_cases ha : IsDeviceAddress p f.arg0
    · rw [f.withAddressedOperand_valid p _ ha] at h
      exact f.withOperand_end g body hbody h
    · rw [f.withAddressedOperand_invalid p _ (by omega) ha, Host.Outcome.next.injEq] at h
      exact h ▸ .raised f.num _ (by decide)

/-! ### Every operation -/

/-- How the issue part of operation `i` leaves FCV, `f` being FCV with CMD stored and the registers of R44 cleared:
it raises an error, ends as a codec operation or as CONFIGURE, or goes on to SENDING or AWAITING_REPLY. -/
inductive IssueEnd (p : Params) (f : Fcv) : Instr → Fcv → Prop
  | raised {i : Instr} (n : Half) (c : ResultCode) (hc : c ≠ .none) :
      IssueEnd p f i (Fcv.raise { f with num := n } c none)
  | codec {i : Instr} {g : Fcv} (hi : i ≠ .configure ∧ ¬ IsSessionOp i) (hg : CodecEnd f g) : IssueEnd p f i g
  | configured (ha : IsDeviceAddress p f.arg0) : IssueEnd p f .configure (configureBody f)
  | sending {i : Instr} (n : Half) (hi : IsSendingOp i) (hs : f.sessionValid = true)
      (hf : ∃ frame, f.commandFrame = some (.ok frame)) :
      IssueEnd p f i (Fcv.startSending { f with num := n })
  | receiving (hs : f.sessionValid = true) : IssueEnd p f .receive f.startReceive

/-- All that the session checks of a sending operation lead to (R104). -/
theorem Fcv.withCommandFrame_end (p : Params) (i : Instr) (hi : IsSendingOp i)
    (h : f.withCommandFrame Fcv.startSending = .next g) : IssueEnd p f i g := by
  rcases f.withCommandFrame_next g _ h with ⟨-, rfl⟩ | ⟨-, -, rfl⟩ | ⟨hs, x, hx, rfl⟩
  · exact .raised f.num _ (by decide)
  · exact .raised f.num _ (by decide)
  · rw [f.checkFrame_eq]
    split
    · exact .raised _ _ (by decide)
    · rename_i hck
      exact .sending _ hi hs ⟨_, by rw [f.commandFrame_is x hx, encodeCommand_eq, if_neg hck]⟩

/-- The operation's own part of its issue, CMD stored and the registers of R44 cleared (R71, R98 to R111). -/
def issueBody (p : Params) (i : Instr) (f : Fcv) : Host.Outcome Fcv Fault Refusal :=
  match i with
  | .configure => f.withAddress p (.next (configureBody f))
  | .hexify => .next (hexifyBody f)
  | .unhexify => f.withOperand fun x => .next (unhexifyBody f x)
  | .checksum => f.withOperand fun x => .next (checksumBody f x)
  | .encode => f.withAddressedOperand p fun x => .next (encodeBody f x)
  | .decode => f.withAddressedOperand p fun x => .next (decodeBody f x)
  | .receive => f.withSession (.next f.startReceive)
  | .send | .query | .queryRetry | .command => f.withCommandFrame Fcv.startSending

/-- Every operation is an issue of its own word with its own part. -/
theorem exec_eq_issue (i : Instr) : exec i s = s.issue (opcode i) (issueBody s.params i) := by
  cases i <;> rfl

theorem issueBody_sending (p : Params) (i : Instr) (hi : IsSendingOp i) :
    issueBody p i f = f.withCommandFrame Fcv.startSending := by
  rcases hi with rfl | rfl | rfl | rfl <;> rfl

/-- All that an operation's own part can do if it answers. -/
theorem issueBody_end (p : Params) (i : Instr) (h : issueBody p i f = .next g) : IssueEnd p f i g := by
  cases i with
  | configure =>
    rcases f.withAddress_cases p (.next (configureBody f)) with ⟨ha, hw⟩ | ⟨-, hw⟩ <;>
      rw [issueBody, hw, Host.Outcome.next.injEq] at h <;> subst h
    · exact .configured ha
    · exact .raised f.num _ (by decide)
  | hexify =>
    rw [issueBody, Host.Outcome.next.injEq] at h
    exact .codec (by decide) (h ▸ hexifyBody_end f)
  | unhexify => exact .codec (by decide) (f.withOperand_end g _ (fun x _ => unhexifyBody_end f x) h)
  | checksum => exact .codec (by decide) (f.withOperand_end g _ (fun x _ => checksumBody_end f x) h)
  | encode => exact .codec (by decide) (f.withAddressedOperand_end g p _ (encodeBody_end f) h)
  | decode => exact .codec (by decide) (f.withAddressedOperand_end g p _ (decodeBody_end f) h)
  | receive =>
    rcases f.withSession_cases (.next f.startReceive) with ⟨hs, hw⟩ | ⟨-, hw⟩ <;>
      rw [issueBody, hw, Host.Outcome.next.injEq] at h <;> subst h
    · exact .receiving hs
    · exact .raised f.num _ (by decide)
  | send | query | queryRetry | command => exact f.withCommandFrame_end g p _ (by decide) h

/-- All that the issue of an operation can do if it answers a next state. -/
theorem exec_next (i : Instr) (h : exec i s = .next t) :
    ∃ g, IssueEnd s.params (s.fcv.issued (opcode i)) i g ∧ t = s.withFcv g := by
  rw [exec_eq_issue] at h
  obtain ⟨-, g, hg, ht⟩ := s.issue_next t _ _ h
  exact ⟨g, issueBody_end _ g _ i hg, ht⟩

/-- All that the issue of an illegal word can do if it answers a next state (R72). -/
theorem execBadOpcode_next (v : Byte) (h : execBadOpcode v s = .next t) :
    t = s.withFcv ((s.fcv.issued v).finish .failed .badOpcode) := by
  obtain ⟨-, g, hg, ht⟩ := s.issue_next t v _ h
  rw [Host.Outcome.next.injEq] at hg
  rw [ht, ← hg]

end Sys2Proof.Machine
end

section
/-! Every step keeps the invariant of FCV. Its clauses fall into those that do not name SEQSTATE (`Standing`), those
that every operation in progress shares (`Underway`), and those of one sequencer state. For each sequencer state one
lemma builds the invariant from these; each step of the machine is then a use of the lemma of the state it leads to. -/

namespace Sys2Proof.Machine

variable {p : Params} {f g : Fcv}

/-! ### The parts of the invariant -/

/-- The clauses of the invariant that name neither SEQSTATE nor RESULT nor BOOL. -/
structure Standing (p : Params) (f : Fcv) : Prop where
  inbufForm : f.inbuf.wf 64
  outbufForm : f.outbuf.wf 128
  outlenBound : f.outlen.toNat ≤ 128
  outputValued : ∀ i, i < f.outlen.toNat → f.outbuf.read i ≠ none
  receiveBound : f.rxbuf.length ≤ 128
  sessionAddress : f.sessionValid = true → IsDeviceAddress p f.saddr
  attemptsBound : f.attempts.toNat ≤ f.smaxretry.toNat + 1
  failcntBound : if f.cmd = opcode .receive then f.failcnt.toNat ≤ 1 else f.failcnt.toNat ≤ f.attempts.toNat
  lastfailKind : f.lastfail = .none ∨ RetryEligible f.lastfail

/-- What holds besides while an operation is in progress, whichever state it is in. -/
structure Underway (p : Params) (f : Fcv) : Prop extends Standing p f where
  result : f.result = .none
  bool : f.bool = false
  session : f.sessionValid = true
  frameReady : f.cmd ≠ opcode .receive → ∃ frame, f.commandFrame = some (.ok frame)
  attemptsSingle : (f.cmd = opcode .send ∨ f.cmd = opcode .query → f.attempts = 1) ∧
    (f.cmd = opcode .receive → f.attempts = 0)

/-- FAILCNT before the reply of the current attempt is judged (R39). -/
abbrev CountsEarlier (f : Fcv) : Prop :=
  if f.cmd = opcode .receive then f.failcnt = 0 else f.failcnt.toNat + 1 = f.attempts.toNat

/-- The operation word is that of a session operation that receives (R120). -/
abbrev Receives (f : Fcv) : Prop := ∃ i, IsSessionOp i ∧ i ≠ .send ∧ f.cmd = opcode i

theorem FcvInv.standing (h : FcvInv p f) : Standing p f := { h with }

theorem FcvInv.bool_of_not_done (h : FcvInv p f) (hs : f.seqstate ≠ .done) : f.bool = false := by
  by_contra hb
  obtain ⟨-, -, hdone⟩ := h.boolMeaning (by simpa using hb)
  exact hs hdone

theorem FcvInv.underway (h : FcvInv p f) (hb : f.busy = true) : Underway p f :=
  { h with
    result := h.resultNone.mpr (.inl hb)
    bool := h.bool_of_not_done fun hd => by simp [Fcv.busy_iff, hd] at hb
    session := h.busySession hb
    frameReady := h.frameReady hb
    attemptsSingle := h.attemptsSingle hb }

/-! ### The invariant in each sequencer state -/

/-- The invariant where an operation has ended. -/
theorem FcvInv.of_ended (h : Standing p f)
    (hs : f.seqstate = .done ∨ f.seqstate = .exhausted ∨ f.seqstate = .failed) (hr : f.result ≠ .none)
    (doneCounts : f.seqstate = .done → f.cmd = opcode .queryRetry ∨ f.cmd = opcode .command →
      f.failcnt.toNat + 1 = f.attempts.toNat)
    (exhausted : f.seqstate = .exhausted →
      f.failcnt = f.attempts ∧ f.attempts.toNat = f.smaxretry.toNat + 1 ∧
        (f.cmd = opcode .queryRetry ∧ f.result = .nullResponse ∨
          f.cmd = opcode .command ∧ f.result = .communicationError))
    (doneResult : f.seqstate = .done → f.result = .ok ∨ f.cmd = opcode .command ∧ f.result = .unexpectedReply)
    (boolMeaning : f.bool = true → f.cmd = opcode .command ∧ f.result = .ok ∧ f.seqstate = .done) :
    FcvInv p f := by
  have hbusy : f.busy = false := f.not_busy_iff.mpr (.inr hs)
  have hnot : f.seqstate ≠ .idle ∧ f.seqstate ≠ .sending ∧ f.seqstate ≠ .awaitingReply ∧
      f.seqstate ≠ .decodingOk ∧ f.seqstate ≠ .decodeFailed := by
    rcases hs with hs | hs | hs <;> simp [hs]
  obtain ⟨hidle, hsend, hawait, hdec, hfail⟩ := hnot
  exact
    { h with
      outlenCleared := by simp [hbusy]
      huntEmpty := fun h => absurd h hawait
      accumShape := fun h => absurd h hawait
      resultNone := by simp [hr, hbusy, hidle]
      busySession := by simp [hbusy]
      sendingCmd := fun h => absurd h hsend
      receivingCmd := by simp [hawait, hdec, hfail]
      frameReady := by simp [hbusy]
      attemptsSingle := by simp [hbusy]
      failcntRunning := by simp [hsend, hawait, hdec]
      failcntFailed := fun h => absurd h hfail
      doneCounts, exhausted, doneResult, boolMeaning
      lastfailSet := fun h => absurd h hfail }

theorem FcvInv.of_failed (h : Standing p f) (hs : f.seqstate = .failed) (hr : f.result ≠ .none)
    (hb : f.bool = false) : FcvInv p f :=
  .of_ended h (.inr (.inr hs)) hr (by simp [hs]) (by simp [hs]) (by simp [hs]) (by simp [hb])

theorem FcvInv.of_done (h : Standing p f) (hs : f.seqstate = .done)
    (hr : f.result = .ok ∨ f.cmd = opcode .command ∧ f.result = .unexpectedReply)
    (hn : f.cmd = opcode .queryRetry ∨ f.cmd = opcode .command → f.failcnt.toNat + 1 = f.attempts.toNat)
    (hb : f.bool = true → f.cmd = opcode .command ∧ f.result = .ok) : FcvInv p f :=
  .of_ended h (.inl hs) (by rcases hr with hr | ⟨-, hr⟩ <;> simp [hr]) (fun _ => hn) (by simp [hs]) (fun _ => hr)
    (fun h => ⟨(hb h).1, (hb h).2, hs⟩)

theorem FcvInv.of_exhausted (h : Standing p f) (hs : f.seqstate = .exhausted) (hn : f.failcnt = f.attempts)
    (ha : f.attempts.toNat = f.smaxretry.toNat + 1)
    (hr : f.cmd = opcode .queryRetry ∧ f.result = .nullResponse ∨
      f.cmd = opcode .command ∧ f.result = .communicationError)
    (hb : f.bool = false) : FcvInv p f :=
  .of_ended h (.inr (.inl hs)) (by rcases hr with ⟨-, hr⟩ | ⟨-, hr⟩ <;> simp [hr]) (by simp [hs])
    (fun _ => ⟨hn, ha, hr⟩) (by simp [hs]) (by simp [hb])

/-- The invariant where an operation is in progress. -/
theorem FcvInv.of_underway (u : Underway p f) (hbusy : f.busy = true)
    (outlenCleared : f.seqstate ≠ .decodingOk → f.outlen = 0)
    (huntEmpty : f.seqstate = .awaitingReply → f.rxphase = .hunt → f.rxbuf = [])
    (accumShape : f.seqstate = .awaitingReply → f.rxphase = .accum →
      f.rxbuf.head? = some 0x23#8 ∧ 0x0D#8 ∉ f.rxbuf)
    (sendingCmd : f.seqstate = .sending → ∃ i, IsSendingOp i ∧ f.cmd = opcode i)
    (receivingCmd : f.seqstate ≠ .sending → Receives f)
    (failcntRunning : f.seqstate ≠ .decodeFailed → CountsEarlier f)
    (failcntFailed : f.seqstate = .decodeFailed →
      if f.cmd = opcode .receive then f.failcnt = 1 else f.failcnt = f.attempts)
    (lastfailSet : f.seqstate = .decodeFailed → RetryEligible f.lastfail) : FcvInv p f := by
  have hs := f.busy_iff.mp hbusy
  have hnot : f.seqstate ≠ .done ∧ f.seqstate ≠ .exhausted := by
    rcases hs with hs | hs | hs | hs <;> simp [hs]
  obtain ⟨hdone, hexh⟩ := hnot
  exact
    { u with
      outlenCleared := fun _ => outlenCleared
      huntEmpty, accumShape, sendingCmd, failcntFailed, lastfailSet
      resultNone := by simp [u.result, hbusy]
      busySession := fun _ => u.session
      receivingCmd := fun hr => receivingCmd (by rcases hr with hr | hr | hr <;> simp [hr])
      frameReady := fun _ => u.frameReady
      attemptsSingle := fun _ => u.attemptsSingle
      failcntRunning := fun hr => failcntRunning (by rcases hr with hr | hr | hr <;> simp [hr])
      doneCounts := fun h => absurd h hdone
      exhausted := fun h => absurd h hexh
      doneResult := fun h => absurd h hdone
      boolMeaning := by simp [u.bool] }

theorem FcvInv.of_sending (u : Underway p f) (hs : f.seqstate = .sending) (ho : f.outlen = 0)
    (hc : ∃ i, IsSendingOp i ∧ f.cmd = opcode i) (hn : CountsEarlier f) : FcvInv p f :=
  .of_underway u (f.busy_iff.mpr (.inl hs)) (fun _ => ho) (by simp [hs]) (by simp [hs]) (fun _ => hc) (by simp [hs])
    (fun _ => hn) (by simp [hs]) (by simp [hs])

/-- The invariant where a receive begins (R108, R113). -/
theorem FcvInv.of_hunting (u : Underway p f) (hs : f.seqstate = .awaitingReply) (ho : f.outlen = 0)
    (hp : f.rxphase = .hunt) (hr : f.rxbuf = []) (hc : Receives f) (hn : CountsEarlier f) : FcvInv p f :=
  .of_underway u (f.busy_iff.mpr (.inr (.inl hs))) (fun _ => ho) (fun _ _ => hr) (by simp [hp]) (by simp [hs])
    (fun _ => hc) (fun _ => hn) (by simp [hs]) (by simp [hs])

theorem FcvInv.of_decodingOk (u : Underway p f) (hs : f.seqstate = .decodingOk) (hc : Receives f)
    (hn : CountsEarlier f) : FcvInv p f :=
  .of_underway u (f.busy_iff.mpr (.inr (.inr (.inl hs)))) (by simp [hs]) (by simp [hs]) (by simp [hs]) (by simp [hs])
    (fun _ => hc) (fun _ => hn) (by simp [hs]) (by simp [hs])

theorem FcvInv.of_decodeFailed (u : Underway p f) (hs : f.seqstate = .decodeFailed) (ho : f.outlen = 0)
    (hc : Receives f) (hn : if f.cmd = opcode .receive then f.failcnt = 1 else f.failcnt = f.attempts)
    (hl : RetryEligible f.lastfail) : FcvInv p f :=
  .of_underway u (f.busy_iff.mpr (.inr (.inr (.inr hs)))) (fun _ => ho) (by simp [hs]) (by simp [hs]) (by simp [hs])
    (fun _ => hc) (by simp [hs]) (fun _ => hn) (fun _ => hl)

/-! ### What keeps the standing clauses -/

theorem Standing.finish (h : Standing p f) (st : SeqState) (r : ResultCode) : Standing p (f.finish st r) :=
  { h with }

theorem Standing.putOut (h : Standing p f) (r : List Byte) (hr : r.length ≤ 128) : Standing p (f.putOut r) := by
  have hlen : (f.putOut r).outlen.toNat = r.length := by
    rw [Fcv.putOut_outlen, BitVec.toNat_ofNat]
    omega
  exact
    { h with
      outbufForm := Memory.writeFrom_wf 128 r f.outbuf 0 h.outbufForm (by omega)
      outlenBound := by omega
      outputValued := fun i hi => by
        rw [f.putOut_holds r i (by omega)]
        simp; omega }

/-- The clearing at issue keeps the standing clauses, whatever word CMD gets (R44, R71). -/
theorem Standing.issued (h : Standing p f) (v : Byte) : Standing p (f.issued v) where
  inbufForm := h.inbufForm
  outbufForm := h.outbufForm
  outlenBound := Nat.zero_le _
  outputValued := fun _ hi => absurd hi (Nat.not_lt_zero _)
  receiveBound := Nat.zero_le _
  sessionAddress := h.sessionAddress
  attemptsBound := Nat.zero_le _
  failcntBound := by split <;> exact Nat.zero_le _
  lastfailKind := .inl rfl

/-! ### The issue of an operation -/

@[simp] theorem configureBody_cmd : (configureBody f).cmd = f.cmd := rfl

/-- A raised error ends in FAILED, whatever NUM got. -/
theorem Standing.raise_inv (h : Standing p f) (hb : f.bool = false) (n : Half) (c : ResultCode) (hc : c ≠ .none) :
    FcvInv p (Fcv.raise { f with num := n } c none) :=
  .of_failed { h with } rfl hc hb

/-- A codec operation ends in a state that meets the invariant. -/
theorem CodecEnd.inv (hg : CodecEnd f g) (h : Standing p f) (hb : f.bool = false)
    (hc : f.cmd ≠ opcode .queryRetry ∧ f.cmd ≠ opcode .command) : FcvInv p g := by
  obtain ⟨hcq, hcc⟩ := hc
  have hn : f.cmd = opcode .queryRetry ∨ f.cmd = opcode .command → f.failcnt.toNat + 1 = f.attempts.toNat :=
    fun h => absurd h (by simp [hcq, hcc])
  cases hg with
  | raised n c hc => exact h.raise_inv hb n c hc
  | number n => exact .of_done { h with } rfl (.inl rfl) hn (by simp [hb])
  | output n r hr =>
    have h' : Standing p { f with num := n } := { h with }
    exact .of_done ((h'.putOut r hr).finish .done .ok) rfl (.inl rfl) hn (by simp [hb])
  | undecoded c info hc =>
    refine .of_failed { h with lastfailKind := .inr hc } rfl ?_ hb
    rcases hc with rfl | rfl | rfl <;> simp

/-- The issue of an operation leads to a state that meets the invariant. -/
theorem IssueEnd.inv {i : Instr} (hg : IssueEnd p (f.issued (opcode i)) i g) (h : FcvInv p f) : FcvInv p g := by
  have hst : Standing p (f.issued (opcode i)) := h.standing.issued _
  cases hg with
  | raised n c hc => exact hst.raise_inv rfl n c hc
  | codec hi hg =>
    obtain ⟨-, hi⟩ := hi
    have hne (j : Instr) (hj : IsSessionOp j) : (f.issued (opcode i)).cmd ≠ opcode j := fun h =>
      hi ((opcode_inj i j).mp h ▸ hj)
    exact hg.inv hst rfl ⟨hne _ (by decide), hne _ (by decide)⟩
  | configured ha =>
    exact .of_done { hst with sessionAddress := fun _ => ha, attemptsBound := Nat.zero_le _ } rfl (.inl rfl)
      (by simp) nofun
  | sending n hi hs hf =>
    have hnr : i ≠ .receive := by rcases hi with rfl | rfl | rfl | rfl <;> decide
    refine .of_sending
      { hst with
        attemptsBound := Nat.le_add_left 1 _, failcntBound := ?_, result := rfl, bool := rfl, session := hs
        frameReady := fun _ => hf, attemptsSingle := ⟨fun _ => rfl, ?_⟩ } rfl rfl ⟨i, hi, rfl⟩ ?_
    all_goals simp [CountsEarlier, hnr]
  | receiving hs =>
    refine .of_hunting
      { hst with
        result := rfl, bool := rfl, session := hs
        frameReady := fun hn => absurd rfl hn, attemptsSingle := ⟨?_, fun _ => rfl⟩ } rfl rfl rfl rfl
      ⟨.receive, by decide, by decide, rfl⟩ ?_
    all_goals simp [CountsEarlier]

/-- The issue of an illegal word leads to a state that meets the invariant (R72). -/
theorem FcvInv.badOpcode (h : FcvInv p f) (v : Byte) : FcvInv p ((f.issued v).finish .failed .badOpcode) :=
  .of_failed ((h.standing.issued v).finish _ _) rfl (by simp) rfl

/-! ### The sequencer -/

theorem Underway.raise_inv (u : Underway p f) (c : ResultCode) (hc : c ≠ .none) : FcvInv p (f.raise c none) :=
  u.toStanding.raise_inv u.bool f.num c hc

/-- Before an operation's reply is judged, QUERY_RETRY and COMMAND have one attempt more than failures (R39). -/
theorem CountsEarlier.retrying (hn : CountsEarlier f) (hc : f.cmd = opcode .queryRetry ∨ f.cmd = opcode .command) :
    f.failcnt.toNat + 1 = f.attempts.toNat := by
  rcases hc with hc | hc <;> simpa [CountsEarlier, hc] using hn

/-- A session operation that sends and is not SEND also receives (R120). -/
theorem Receives.of_sending (hc : ∃ i, IsSendingOp i ∧ f.cmd = opcode i) (hne : f.cmd ≠ opcode .send) :
    Receives f := by
  obtain ⟨i, hi, hcmd⟩ := hc
  refine ⟨i, ?_, fun h => hne (h ▸ hcmd), hcmd⟩
  rcases hi with rfl | rfl | rfl | rfl <;> decide

/-- SENDING keeps the invariant, whatever the transport answers (R113). -/
theorem FcvInv.afterTx (h : FcvInv p f) (hs : f.seqstate = .sending) (a : TxAnswer) : FcvInv p (f.afterTx a) := by
  have hb : f.busy = true := f.busy_iff.mpr (.inl hs)
  have u := h.underway hb
  have hn : CountsEarlier f := h.failcntRunning (.inl hs)
  cases a with
  | transportFault n => exact u.raise_inv _ (by decide)
  | ok =>
    show FcvInv p f.afterSend
    unfold Fcv.afterSend
    split
    · rename_i hc
      exact .of_done (u.finish _ _) rfl (.inl rfl) (by simp [hc]) (by simp [u.bool])
    · rename_i hc
      exact .of_hunting { u with receiveBound := Nat.zero_le _ } rfl (h.outlenCleared hb (by simp [hs])) rfl rfl
        (Receives.of_sending (h.sendingCmd hs) hc) hn

/-- A failed attempt leads to a state that meets the invariant (R116, R117). -/
theorem Underway.failAttempt (u : Underway p f) (ho : f.outlen = 0) (hcmd : Receives f) (hn : CountsEarlier f)
    (c : ResultCode) (info : ErrInfo) (hc : RetryEligible c) : FcvInv p (f.failAttempt c info) := by
  have hcount : if f.cmd = opcode .receive then f.failcnt + 1 = 1 else f.failcnt + 1 = f.attempts := by
    split
    · rename_i hr
      simpa [CountsEarlier, hr] using hn
    · rename_i hr
      have : f.failcnt.toNat + 1 = f.attempts.toNat := by simpa [CountsEarlier, hr] using hn
      bv_omega
  refine .of_decodeFailed { u with failcntBound := ?_, lastfailKind := .inr hc } rfl ho hcmd hcount hc
  rw [Fcv.failAttempt_cmd, Fcv.failAttempt_failcnt, Fcv.failAttempt_attempts]
  by_cases hr : f.cmd = opcode .receive
  · rw [if_pos hr] at hcount ⊢
    rw [hcount]
    decide
  · rw [if_neg hr] at hcount ⊢
    rw [hcount]

/-- The decode at the terminator leads to a state that meets the invariant (R117). -/
theorem Underway.decodeCandidate (u : Underway p f) (ho : f.outlen = 0) (hcmd : Receives f)
    (hn : CountsEarlier f) : FcvInv p f.decodeCandidate := by
  rcases f.decodeCandidate_cases with ⟨x, hd, he⟩ | ⟨-, he⟩ | ⟨c, info, hc, -, he⟩ <;> rw [he]
  · have hx := decodeReply_ok_length _ _ _ _ hd
    have hr := u.receiveBound
    obtain ⟨n, hst⟩ := f.storeReply_eq f.rxbuf x f.cken
    rw [hst]
    have h' : Standing p { f with num := n } := { u with }
    exact .of_decodingOk { u with toStanding := { h'.putOut x (by omega) with } } rfl hcmd hn
  · exact u.toStanding.raise_inv u.bool 256 _ (by decide)
  · exact u.failAttempt ho hcmd hn c info hc

/-- A byte read in the hunt phase keeps the invariant (R115). -/
theorem FcvInv.huntByte (h : FcvInv p f) (b : Byte) : FcvInv p (f.huntByte b) := by
  unfold Fcv.huntByte
  split
  · exact { h with receiveBound := by simp, huntEmpty := nofun, accumShape := by simp }
  · exact h

/-- A byte read in the accumulate phase keeps the invariant (R116, R117). -/
theorem FcvInv.accumByte (h : FcvInv p f) (hs : f.seqstate = .awaitingReply) (hp : f.rxphase = .accum) (b : Byte) :
    FcvInv p (f.accumByte b) := by
  have hb : f.busy = true := f.busy_iff.mpr (.inr (.inl hs))
  have u := h.underway hb
  have ho : f.outlen = 0 := h.outlenCleared hb (by simp [hs])
  have hcmd : Receives f := h.receivingCmd (.inl hs)
  have hn : CountsEarlier f := h.failcntRunning (.inr (.inl hs))
  have hbound := h.receiveBound
  have happend : f.rxbuf.length ≠ 128 → ∀ x : Byte, (f.rxbuf ++ [x]).length ≤ 128 := fun hl x => by
    simp; omega
  unfold Fcv.accumByte
  split
  · exact u.failAttempt ho hcmd hn _ _ (by decide)
  · rename_i hl
    split
    · have u' : Underway p { f with rxbuf := f.rxbuf ++ [Config.term] } :=
        { u with receiveBound := happend hl _ }
      exact u'.decodeCandidate ho hcmd hn
    · rename_i hcr
      have hnot : 0x0D#8 ≠ b := Ne.symm hcr
      obtain ⟨hhead, hnocr⟩ := h.accumShape hs hp
      exact
        { h with
          receiveBound := happend hl b
          huntEmpty := by simp [hp]
          accumShape := fun _ _ => ⟨by simp [hhead], by simp [hnocr, hnot]⟩ }

/-- The step in AWAITING_REPLY keeps the invariant, whatever the transport answers (R114). -/
theorem FcvInv.rxAnswer (h : FcvInv p f) (hs : f.seqstate = .awaitingReply) (a : RxAnswer) :
    FcvInv p (f.rxAnswer a) := by
  have u := h.underway (f.busy_iff.mpr (.inr (.inl hs)))
  cases a with
  | timeout => exact u.raise_inv _ (by decide)
  | transportFault => exact u.raise_inv _ (by decide)
  | byte b =>
    show FcvInv p (f.rxByte b)
    unfold Fcv.rxByte
    split
    · exact h.huntByte b
    · exact h.accumByte hs ‹_› b

/-- The step in DECODING_OK keeps the invariant where the operation is COMMAND (R111, R118). -/
theorem FcvInv.interpret (h : FcvInv p f) (hs : f.seqstate = .decodingOk) (hc : f.cmd = opcode .command)
    (x : List Byte) : FcvInv p (f.interpret x) := by
  have u := h.underway (f.busy_iff.mpr (.inr (.inr (.inl hs))))
  have hn : CountsEarlier f := h.failcntRunning (.inr (.inr hs))
  unfold Fcv.interpret
  split_ifs
  · exact .of_done { u with } rfl (.inl rfl) hn.retrying (fun _ => ⟨hc, rfl⟩)
  · exact .of_done { u with } rfl (.inl rfl) hn.retrying (fun _ => ⟨hc, rfl⟩)
  · exact .of_done (u.finish _ _) rfl (.inr ⟨hc, rfl⟩) hn.retrying (by simp [u.bool])

/-- The step in DECODING_OK keeps the invariant where the operation is not COMMAND (R118). -/
theorem FcvInv.finish_decoded (h : FcvInv p f) (hs : f.seqstate = .decodingOk) : FcvInv p (f.finish .done .ok) := by
  have u := h.underway (f.busy_iff.mpr (.inr (.inr (.inl hs))))
  have hn : CountsEarlier f := h.failcntRunning (.inr (.inr hs))
  exact .of_done (u.finish _ _) rfl (.inl rfl) hn.retrying (by simp [u.bool])

/-- A retry leads to a state that meets the invariant (R119). -/
theorem Underway.retry (u : Underway p f) (ho : f.outlen = 0) (hcount : f.failcnt = f.attempts)
    (hlt : f.attempts.toNat < f.smaxretry.toNat + 1)
    (hcmd : f.cmd = opcode .queryRetry ∨ f.cmd = opcode .command) :
    FcvInv p { f with attempts := f.attempts + 1, seqstate := .sending } := by
  have hnext : (f.attempts + 1).toNat = f.attempts.toNat + 1 := by
    have := f.smaxretry.isLt
    bv_omega
  have hfails : f.failcnt.toNat + 1 = (f.attempts + 1).toNat := by rw [hcount, hnext]
  have hbound : f.failcnt.toNat ≤ (f.attempts + 1).toNat := by omega
  have hsend : ∃ i, IsSendingOp i ∧ f.cmd = opcode i := by
    rcases hcmd with hc | hc
    · exact ⟨.queryRetry, by decide, hc⟩
    · exact ⟨.command, by decide, hc⟩
  have hnot : f.cmd ≠ opcode .send ∧ f.cmd ≠ opcode .query ∧ f.cmd ≠ opcode .receive := by
    rcases hcmd with hc | hc <;> simp [hc]
  obtain ⟨hns, hnq, hnr⟩ := hnot
  refine .of_sending
    { u with
      attemptsBound := hnext.trans_le hlt
      failcntBound := by rw [if_neg hnr]; exact hbound
      attemptsSingle := ⟨fun h => absurd h (by simp [hns, hnq]), fun h => absurd h hnr⟩ } rfl ho hsend ?_
  rw [CountsEarlier, if_neg hnr]
  exact hfails

/-- The step in DECODE_FAILED keeps the invariant: it ends the operation, retries it or ends it exhausted (R119). -/
theorem FcvInv.retryOrEnd (h : FcvInv p f) (hs : f.seqstate = .decodeFailed) : FcvInv p f.retryOrEnd := by
  have hb : f.busy = true := f.busy_iff.mpr (.inr (.inr (.inr hs)))
  have u := h.underway hb
  unfold Fcv.retryOrEnd
  split
  · refine .of_failed (u.finish _ _) rfl ?_ u.bool
    rcases h.lastfailSet hs with hl | hl | hl <;> simp [hl]
  rename_i hends
  have hcmd : f.cmd = opcode .queryRetry ∨ f.cmd = opcode .command := by
    obtain ⟨i, hi, hne, hc⟩ := h.receivingCmd (.inr (.inr hs))
    rcases hi with rfl | rfl | rfl | rfl | rfl
    · exact absurd rfl hne
    · exact absurd (.inl hc) hends
    · exact absurd (.inr hc) hends
    · exact .inl hc
    · exact .inr hc
  have hcount : f.failcnt = f.attempts := by
    have := h.failcntFailed hs
    rwa [if_neg (by tauto)] at this
  split
  · exact u.retry (h.outlenCleared hb (by simp [hs])) hcount ‹_› hcmd
  · have hall : f.attempts.toNat = f.smaxretry.toNat + 1 := by
      have := h.attemptsBound
      omega
    rcases hcmd with hc | hc
    · rw [if_pos hc]
      exact .of_exhausted (u.finish _ _) rfl hcount hall (.inl ⟨hc, rfl⟩) u.bool
    · rw [if_neg (by simp [hc])]
      exact .of_exhausted (u.finish _ _) rfl hcount hall (.inr ⟨hc, rfl⟩) u.bool

/-- A step of the sequencer keeps the invariant (R113 to R119). -/
theorem seqStep_inv (s t : State) (h : MachineInv s) (hstep : seqStep s = .next t) : FcvInv s.params t.fcv := by
  have hinv : FcvInv s.params s.fcv := h
  rcases seqStep_cases s t hstep with ⟨hs, _, -, he, -⟩ | ⟨hs, he, -⟩ |
    ⟨hs, -, ⟨hc, x, -, -, he⟩ | ⟨-, he⟩⟩ | ⟨hs, he, -⟩ | ⟨-, rfl⟩
  · exact he ▸ hinv.afterTx hs _
  · exact he ▸ hinv.rxAnswer hs _
  · exact he ▸ hinv.interpret hs hc x
  · exact he ▸ hinv.finish_decoded hs
  · exact he ▸ hinv.retryOrEnd hs
  · exact hinv

/-! ### The host's stores, and reset -/

/-- A byte the host stores keeps the invariant: BUSY = 0, so no command frame is in use (R50, R53). -/
theorem FcvInv.storeByte (h : FcvInv p f) (hb : f.busy = false) (a v : Byte) :
    FcvInv p (f.storeByte (locate a) v) := by
  have hidle : ¬ f.busy = true := by simp [hb]
  rcases f.storeByte_cases (locate a) v with he | ⟨-, he⟩ | ⟨-, he⟩ | ⟨-, he⟩ | ⟨-, he⟩ | ⟨i, hl, he⟩ <;> rw [he]
  · exact h
  · exact { h with }
  · exact { h with }
  · exact { h with }
  · exact { h with frameReady := fun hbusy => absurd hbusy hidle }
  · obtain ⟨hi, -⟩ := (locate_eq_inbuf a i).mp hl
    exact
      { h with
        inbufForm := Memory.write_wf 64 f.inbuf i v h.inbufForm hi
        frameReady := fun hbusy => absurd hbusy hidle }

/-- The reset values meet the invariant, whatever the parameter is (R45). -/
theorem FcvInv.reset (p : Params) : FcvInv p Fcv.reset := by
  constructor <;> simp [Fcv.reset, Fcv.busy_iff, Memory.wf]

/-! ### The obligations on the invariant -/

/-- Settles O43: every clause holds at the reset values, for any parameter. -/
theorem resetMeetsInvariant : Obligations.ResetMeetsInvariant := by
  unfold Obligations.ResetMeetsInvariant
  exact ⟨FcvInv.reset _, rfl⟩

/-- Settles O44: whatever the step is, a lemma on the invariant in the sequencer state it leads to applies. -/
theorem stepKeepsInvariant : Obligations.StepKeepsInvariant := by
  unfold Obligations.StepKeepsInvariant
  intro s t h hstep
  obtain ⟨s0, hf, hp, -, -, -, hcases⟩ := step_cases s t hstep
  have h0 : MachineInv s0 := by
    unfold MachineInv
    rw [hf, hp]
    exact h
  rcases hcases with ⟨t0, hseq, hft, hpt, -, -⟩ | ⟨a, hread, -⟩ | ⟨v, i, rest, -, -, -, hexec⟩ |
    ⟨v, rest, -, -, -, hbad⟩ | ⟨a, v, rest, -, -, hb, rfl⟩ | ⟨n, rest, -, rfl⟩
  · have hpar := (seqStep_surroundings s0 t0 hseq).1
    unfold MachineInv
    rw [hft, hpt, hpar]
    exact seqStep_inv s0 t0 h0 hseq
  · obtain ⟨v, n, rfl⟩ := busRead_next s0 t a hread
    exact h0
  · obtain ⟨g, hg, rfl⟩ := exec_next s0 t i hexec
    exact hg.inv h0
  · rw [execBadOpcode_next s0 t v hbad]
    exact FcvInv.badOpcode h0 v
  · rw [← hf] at hb ⊢
    exact FcvInv.storeByte h0 hb a v
  · exact FcvInv.reset _

/-- SENDING has its frame: no operation but RECEIVE is in progress without one, and RECEIVE never sends (R113). -/
theorem FcvInv.sending_frame (h : FcvInv p f) (hs : f.seqstate = .sending) :
    ∃ frame, f.commandFrame = some (.ok frame) := by
  obtain ⟨i, hi, hc⟩ := h.sendingCmd hs
  refine h.frameReady (f.busy_iff.mpr (.inl hs)) ?_
  rcases hi with rfl | rfl | rfl | rfl <;> simp [hc]

/-- The payload that DECODING_OK interprets has a value (R118). -/
theorem FcvInv.output_readable (h : FcvInv p f) : ∃ x, f.outbuf.readRange f.outlen.toNat = some x := by
  refine Option.ne_none_iff_exists'.mp fun hnone => ?_
  obtain ⟨i, hi, hr⟩ := (Memory.readRange_eq_none _ _).mp hnone
  exact h.outputValued i hi hr

/-- In a state that meets the invariant the sequencer's step is never stopped while BUSY = 1. -/
theorem seqStep_completes (s : State) (h : MachineInv s) (hb : s.fcv.busy = true) : Completes (seqStep s) := by
  have hinv : FcvInv s.params s.fcv := h
  unfold seqStep
  rcases s.fcv.busy_iff.mp hb with hs | hs | hs | hs <;> rw [hs]
  · obtain ⟨frame, hf⟩ := hinv.sending_frame hs
    obtain ⟨t, ht, -⟩ := seqSending_eq s frame hf
    exact ⟨_, ht⟩
  · obtain ⟨t, ht, -⟩ := seqAwaiting_eq s
    exact ⟨_, ht⟩
  · obtain ⟨x, hx⟩ := hinv.output_readable
    simp only [seqDecodingOk, hx]
    split <;> exact ⟨_, rfl⟩
  · exact ⟨_, rfl⟩

/-- Settles O45: in each of the four busy states the invariant supplies what the step needs. -/
theorem busySequencerAlwaysMoves : Obligations.BusySequencerAlwaysMoves := by
  unfold Obligations.BusySequencerAlwaysMoves
  intro s rest h hb
  rw [step_before_seq]
  exact seqStep_completes (s.withSchedule rest) h hb

end Sys2Proof.Machine
end

section
/-! What a step leaves alone: the session registers (spec 10_state.md R26, R29 to R31), and what only the host writes
(R23, R32, R33, R40). -/

namespace Sys2Proof.Machine

variable {p : Params} {f g : Fcv}

/-- What only the host writes: CMD, the operand registers and INBUF (R23, R32, R33, R40). -/
def Fcv.inputs (f : Fcv) : Byte × Byte × Byte × Byte × Byte × Memory :=
  (f.cmd, f.arg0, f.arg1, f.arg2, f.inlen, f.inbuf)

/-- What only CONFIGURE writes: SESSION_VALID and the session registers (R26, R29 to R31). -/
def Fcv.sessionRegs (f : Fcv) : Bool × Byte × Bool × Byte :=
  (f.sessionValid, f.saddr, f.cken, f.smaxretry)

/-- `g` has the inputs and the session of `f`. -/
abbrev SameFrame (f g : Fcv) : Prop := g.inputs = f.inputs ∧ g.sessionRegs = f.sessionRegs

theorem Fcv.inputs_eq : g.inputs = f.inputs ↔ g.cmd = f.cmd ∧ g.arg0 = f.arg0 ∧ g.arg1 = f.arg1 ∧
    g.arg2 = f.arg2 ∧ g.inlen = f.inlen ∧ g.inbuf = f.inbuf := by
  simp [Fcv.inputs]

theorem sameSession_iff : SameSession f g ↔ g.sessionRegs = f.sessionRegs := by
  simp only [Fcv.sessionRegs, Prod.mk.injEq]
  exact ⟨fun ⟨h1, h2, h3, h4⟩ => ⟨h1, h2, h3, h4⟩, fun ⟨h1, h2, h3, h4⟩ => ⟨h1, h2, h3, h4⟩⟩

/-! ### Issue -/

/-- A codec operation leaves the host's inputs and the session alone (40_codec.md section 2). -/
theorem CodecEnd.frame (h : CodecEnd f g) : SameFrame f g := by
  cases h with
  | raised n c hc => exact ⟨rfl, rfl⟩
  | number n => exact ⟨rfl, rfl⟩
  | output n r hr => exact ⟨rfl, rfl⟩
  | undecoded c info hc => exact ⟨rfl, rfl⟩

/-- No operation writes the host's inputs. -/
theorem IssueEnd.inputs {i : Instr} (h : IssueEnd p f i g) : g.inputs = f.inputs := by
  cases h with
  | raised n c hc => rfl
  | codec hi hg => exact hg.frame.1
  | configured ha => rfl
  | sending n hi hs hf => rfl
  | receiving hs => rfl

/-- No operation but CONFIGURE with a valid address writes the session (R26, R105). -/
theorem IssueEnd.sessionRegs {i : Instr} (h : IssueEnd p f i g) :
    g.sessionRegs = f.sessionRegs ∨ (i = .configure ∧ IsDeviceAddress p f.arg0 ∧ g.sessionValid = true) := by
  cases h with
  | raised n c hc => exact .inl rfl
  | codec hi hg => exact .inl hg.frame.2
  | configured ha => exact .inr ⟨rfl, ha, rfl⟩
  | sending n hi hs hf => exact .inl rfl
  | receiving hs => exact .inl rfl

/-! ### The sequencer -/

theorem Fcv.decodeCandidate_frame (f : Fcv) : SameFrame f f.decodeCandidate := by
  rcases f.decodeCandidate_cases with ⟨x, -, he⟩ | ⟨-, he⟩ | ⟨c, info, -, -, he⟩ <;> rw [he]
  · obtain ⟨n, hn⟩ := f.storeReply_eq f.rxbuf x f.cken
    rw [hn]
    exact ⟨rfl, rfl⟩
  · exact ⟨rfl, rfl⟩
  · exact ⟨rfl, rfl⟩

theorem Fcv.accumByte_frame (f : Fcv) (b : Byte) : SameFrame f (f.accumByte b) := by
  unfold Fcv.accumByte
  split_ifs
  · exact ⟨rfl, rfl⟩
  · exact Fcv.decodeCandidate_frame { f with rxbuf := f.rxbuf ++ [Config.term] }
  · exact ⟨rfl, rfl⟩

/-- The step in AWAITING_REPLY writes neither the host's inputs nor the session. -/
theorem Fcv.rxAnswer_frame (f : Fcv) (a : RxAnswer) : SameFrame f (f.rxAnswer a) := by
  cases a with
  | timeout => exact ⟨rfl, rfl⟩
  | transportFault => exact ⟨rfl, rfl⟩
  | byte b =>
    simp only [Fcv.rxAnswer, Fcv.rxByte]
    split
    · unfold Fcv.huntByte
      split <;> exact ⟨rfl, rfl⟩
    · exact f.accumByte_frame b

/-- A sequencer step writes neither the host's inputs nor the session. -/
theorem seqStep_frame (s t : State) (h : seqStep s = .next t) :
    SameFrame s.fcv t.fcv := by
  rcases seqStep_cases s t h with ⟨-, _, -, he, -⟩ | ⟨-, he, -⟩ |
    ⟨-, -, ⟨-, x, -, -, he⟩ | ⟨-, he⟩⟩ | ⟨-, he, -⟩ | ⟨-, rfl⟩
  · rw [he]
    cases s.nextTx with
    | transportFault n => exact ⟨rfl, rfl⟩
    | ok =>
      simp only [Fcv.afterTx, Fcv.afterSend]
      split <;> exact ⟨rfl, rfl⟩
  · exact he ▸ s.fcv.rxAnswer_frame _
  · rw [he, Fcv.interpret]
    split_ifs <;> exact ⟨rfl, rfl⟩
  · exact he ▸ ⟨rfl, rfl⟩
  · rw [he, Fcv.retryOrEnd]
    split_ifs <;> exact ⟨rfl, rfl⟩
  · exact ⟨rfl, rfl⟩

/-! ### The step -/

/-- Storing a byte leaves the session alone (R50). -/
theorem Fcv.storeByte_sessionRegs (f : Fcv) (l : Location) (v : Byte) :
    (f.storeByte l v).sessionRegs = f.sessionRegs := by
  rcases f.storeByte_cases l v with he | ⟨-, he⟩ | ⟨-, he⟩ | ⟨-, he⟩ | ⟨-, he⟩ | ⟨i, -, he⟩ <;> rw [he] <;>
    rfl

/-- Settles O49: of all steps only the end of CONFIGURE and a reset write the session. -/
theorem sessionChangesOnlyByConfigure : Obligations.SessionChangesOnlyByConfigure := by
  unfold Obligations.SessionChangesOnlyByConfigure
  intro s t hstep
  obtain ⟨s0, hf, hp, -, -, -, hcases⟩ := step_cases s t hstep
  rw [← hf, ← hp, sameSession_iff]
  rcases hcases with ⟨t0, hseq, hft, -, -, -⟩ | ⟨a, hread, -⟩ | ⟨v, i, rest, hs, hv, -, hexec⟩ |
    ⟨v, rest, -, -, -, hbad⟩ | ⟨a, v, rest, -, -, -, rfl⟩ | ⟨n, rest, hs, -⟩
  · exact .inl (hft ▸ (seqStep_frame s0 t0 hseq).2)
  · obtain ⟨v, n, rfl⟩ := busRead_next s0 t a hread
    exact .inl rfl
  · obtain ⟨g, hg, rfl⟩ := exec_next s0 t i hexec
    rcases hg.sessionRegs with hsame | ⟨rfl, ha, hvalid⟩
    · exact .inl hsame
    · subst hv
      exact .inr (.inr ⟨rest, hs, ha, hvalid⟩)
  · rw [execBadOpcode_next s0 t v hbad]
    exact .inl rfl
  · rw [← hf]
    exact .inl (Fcv.storeByte_sessionRegs _ _ _)
  · exact .inr (.inl ⟨n, rest, hs⟩)

/-- Where an input differs after a byte was stored, the byte was stored at that input's own address (R49, R50). -/
theorem Fcv.storeByte_changes (f : Fcv) (a v : Byte) :
    ((f.storeByte (locate a) v).arg0 ≠ f.arg0 → a = 0x08) ∧
    ((f.storeByte (locate a) v).arg1 ≠ f.arg1 → a = 0x09) ∧
    ((f.storeByte (locate a) v).arg2 ≠ f.arg2 → a = 0x0A) ∧
    ((f.storeByte (locate a) v).inlen ≠ f.inlen → a = 0x0B) ∧
    (f.storeByte (locate a) v).cmd = f.cmd ∧
    ∀ i, (f.storeByte (locate a) v).inbuf.read i ≠ f.inbuf.read i → a = BitVec.ofNat 8 (0x40 + i) := by
  have haddr : (locate a = .reg .arg0 → a = 0x08) ∧ (locate a = .reg .arg1 → a = 0x09) ∧
      (locate a = .reg .arg2 → a = 0x0A) ∧ (locate a = .reg .inlen → a = 0x0B) := by
    revert a; decide
  obtain ⟨h0, h1, h2, hlen⟩ := haddr
  rcases f.storeByte_cases (locate a) v with he | ⟨hl, he⟩ | ⟨hl, he⟩ | ⟨hl, he⟩ | ⟨hl, he⟩ | ⟨i, hl, he⟩ <;>
    rw [he]
  · simp
  · simpa using fun _ => h0 hl
  · simpa using fun _ => h1 hl
  · simpa using fun _ => h2 hl
  · simpa using fun _ => hlen hl
  · obtain ⟨-, ha⟩ := (locate_eq_inbuf a i).mp hl
    refine ⟨by simp, by simp, by simp, by simp, rfl, fun j hj => ?_⟩
    obtain rfl : i = j := by
      by_contra hne
      exact hj (by simp [Memory.read_write, hne])
    exact BitVec.eq_of_toNat_eq (by simp; omega)

/-- Settles O50: FCV itself never writes an input, and a host write reaches one input only. -/
theorem operandsChangeOnlyByHost : Obligations.OperandsChangeOnlyByHost := by
  unfold Obligations.OperandsChangeOnlyByHost
  intro s t hstep hreset
  obtain ⟨s0, hf, -, -, -, -, hcases⟩ := step_cases s t hstep
  rw [← hf]
  rcases hcases with ⟨t0, hseq, hft, -, -, -⟩ | ⟨a, hread, -⟩ | ⟨v, i, rest, hs, hv, -, hexec⟩ |
    ⟨v, rest, hs, -, -, hbad⟩ | ⟨a, v, rest, hs, -, -, rfl⟩ | ⟨n, rest, hs, -⟩
  · obtain ⟨hcmd, h0, h1, h2, hlen, hbuf⟩ := Fcv.inputs_eq.mp (seqStep_frame s0 t0 hseq).1
    simp [hft, hcmd, h0, h1, h2, hlen, hbuf]
  · obtain ⟨v, n, rfl⟩ := busRead_next s0 t a hread
    simp
  · obtain ⟨g, hg, rfl⟩ := exec_next s0 t i hexec
    obtain ⟨-, h0, h1, h2, hlen, hbuf⟩ := Fcv.inputs_eq.mp hg.inputs
    simp [hs, h0, h1, h2, hlen, hbuf]
  · rw [execBadOpcode_next s0 t v hbad]
    simp [hs]
  · rw [← hf]
    obtain ⟨h0, h1, h2, hlen, hcmd, hbuf⟩ := s0.fcv.storeByte_changes a v
    have at_addr {b : Byte} (hab : a = b) : ∃ w rest, s.schedule = .access (.write b w) :: rest :=
      ⟨v, rest, hab ▸ hs⟩
    exact ⟨at_addr ∘ h0, at_addr ∘ h1, at_addr ∘ h2, at_addr ∘ hlen, fun h => absurd hcmd h,
      fun i => at_addr ∘ hbuf i⟩
  · exact absurd hs (hreset n rest)

end Sys2Proof.Machine
end

section
/-! The host's view of the state: reads of buffer bytes without a value (spec 10_state.md R40, R41), operands without
a value, the STATUS byte (R25), the idle sequencer (R24), the reset table (R45), and equal buffers as equal data. -/

namespace Sys2Proof.Machine

variable (s : State) (f : Fcv)

/-! ### Operands without a value -/

/-- Settles O25: the checks before the operand pass, and reading the operand faults. -/
theorem unwrittenOperandFaults : Obligations.UnwrittenOperandFaults := by
  unfold Obligations.UnwrittenOperandFaults
  intro s i k hb hlen hk hr hi
  have hfault (body : List Byte → Host.Outcome Fcv Fault Refusal) :
      (s.fcv.issued (opcode i)).withOperand body = .fault .operandNoValue :=
    Fcv.withOperand_unwritten _ body k hlen hk hr
  rw [exec_eq_issue, s.issue_idle _ _ hb]
  rcases hi with rfl | rfl | ⟨rfl | rfl, ha⟩ | ⟨hi, hs⟩
  · rw [issueBody, hfault, State.lift_fault]
  · rw [issueBody, hfault, State.lift_fault]
  · rw [issueBody, Fcv.withAddressedOperand_valid (s.fcv.issued _) _ _ ha, hfault, State.lift_fault]
  · rw [issueBody, Fcv.withAddressedOperand_valid (s.fcv.issued _) _ _ ha, hfault, State.lift_fault]
  · rw [issueBody_sending _ _ i hi, Fcv.withCommandFrame, Fcv.withSession, if_pos (by simpa using hs), hfault,
      State.lift_fault]

/-! ### Host reads of buffer bytes -/

/-- A host read of an INBUF byte that nothing has written (R40). -/
theorem busRead_inbuf_unwritten (a : Byte) (i : Nat) (hi : i < 64) (ha : a.toNat = 0x40 + i)
    (hr : s.fcv.inbuf.read i = none) : busRead a s = .fault (.inbufNoValue i) := by
  simp only [busRead, (locate_eq_inbuf a i).mpr ⟨hi, ha⟩, Fcv.busValue, hr]

/-- A host read of an OUTBUF byte that nothing has written (R41). -/
theorem busRead_outbuf_unwritten (a : Byte) (i : Nat) (ha : a.toNat = 0x80 + i)
    (hr : s.fcv.outbuf.read i = none) : busRead a s = .fault .outbufNoValue := by
  simp only [busRead, (locate_eq_outbuf a i).mpr ha, Fcv.busValue, hr]

/-- A host read of an OUTBUF byte at or above OUTLEN that was written earlier: any value (R41). -/
theorem busRead_outbuf_stale (a v : Byte) (i : Nat) (ha : a.toNat = 0x80 + i)
    (hr : s.fcv.outbuf.read i = some v) (hi : s.fcv.outlen.toNat ≤ i) :
    busRead a s = .next (({ s with freeCount := s.freeCount + 1 }).logRead a (Config.staleByte s.freeCount)) := by
  simp only [busRead, (locate_eq_outbuf a i).mpr ha, Fcv.busValue, hr, if_neg (Nat.not_lt.mpr hi)]

/-- Settles O36, by the three kinds of buffer byte a host read can meet without a value of its own. -/
theorem bufferReadsWithoutValue : Obligations.BufferReadsWithoutValue := by
  unfold Obligations.BufferReadsWithoutValue
  intro s rest a i
  rw [step_before_read]
  exact ⟨fun hi ha hr => busRead_inbuf_unwritten (s.withSchedule rest) a i hi ha hr,
    fun ha hr => busRead_outbuf_unwritten (s.withSchedule rest) a i ha hr,
    fun v ha hr hi =>
      ⟨_, _, busRead_outbuf_stale (s.withSchedule rest) a v i ha hr hi, rfl, rfl, rfl, rfl, rfl⟩⟩

/-! ### Equal buffers -/

/-- In a buffer with rising indices a byte reads as `b` exactly when it is listed so. -/
theorem Memory.read_eq_some_iff (m : Memory) (h : m.Pairwise (fun c d => c.1 < d.1)) (i : Nat) (b : Byte) :
    m.read i = some b ↔ (i, b) ∈ m := by
  induction m with
  | nil => simp
  | cons c m ih =>
    obtain ⟨j, v⟩ := c
    obtain ⟨hj, hm⟩ := List.pairwise_cons.mp h
    unfold Memory.read
    by_cases hji : j = i
    · subst hji
      have hnot : (j, b) ∉ m := fun hmem => Nat.lt_irrefl j (hj _ hmem)
      simp [hnot, eq_comm]
    · simp [hji, Ne.symm hji, ih hm]

/-- Settles O52: buffers that read alike list the same entries, and rising indices fix their order. -/
theorem canonicalBuffersAreEqual : Obligations.CanonicalBuffersAreEqual := by
  unfold Obligations.CanonicalBuffersAreEqual
  rintro size m m' ⟨hm, -⟩ ⟨hm', -⟩ hsame
  refine List.Pairwise.eq_of_mem_iff hm hm' fun ⟨i, b⟩ => ?_
  rw [← m.read_eq_some_iff hm, ← m'.read_eq_some_iff hm', hsame i]

/-! ### STATUS, the idle sequencer and reset -/

/-- A sequencer step while BUSY = 0 changes nothing (R24). -/
theorem seqStep_idle (h : s.fcv.busy = false) : seqStep s = .next s := by
  unfold seqStep
  rcases s.fcv.not_busy_iff.mp h with hs | hs | hs | hs <;> rw [hs]

/-- Settles O26. -/
theorem sequencerMovesOnlyWhileBusy : Obligations.SequencerMovesOnlyWhileBusy := by
  unfold Obligations.SequencerMovesOnlyWhileBusy
  intro s rest
  refine ⟨s.fcv.busy_iff, by simp [Fcv.busy], fun hb => ?_, fun hb hs => ?_, fun hs => ?_⟩
  · rw [step_before_seq]
    exact seqStep_idle (s.withSchedule rest) hb
  · rw [step_nil s hs]
    exact seqStep_idle s hb
  · have hself : s.withSchedule [] = s := by rw [← hs]; rfl
    rw [step_nil s hs, step_before_seq, hself]

/-- Settles O35, bit by bit over the three stored bits. -/
theorem statusByteFields : Obligations.StatusByteFields := by
  unfold Obligations.StatusByteFields
  intro f
  unfold Fcv.statusByte
  generalize f.busy = busy, f.sessionValid = valid, f.bool = bool
  revert busy valid bool
  decide

/-- Settles O41: the reset state holds the values of R45. -/
theorem resetTable : Obligations.ResetTable := by
  unfold Obligations.ResetTable
  exact ⟨rfl, rfl, rfl, rfl, rfl, rfl, rfl, rfl, rfl, rfl, rfl, rfl, rfl, rfl, rfl, rfl, rfl, rfl, rfl, rfl, rfl,
    Memory.read_nil, Memory.read_nil, rfl, rfl⟩

end Sys2Proof.Machine
end

section
/-! The host register space (spec 20_memory.md R47 to R53): the address of each location, what a host read returns and
leaves alone, and what a host write stores. -/

namespace Sys2Proof.Machine

variable (s t : State) (f : Fcv) (a v : Byte) (rest : List Event)

/-! ### Addresses -/

/-- Each register has its own address and no other (R49). -/
theorem locate_eq_reg (r : Reg) : locate a = .reg r ↔ a = regAddr r := by
  constructor
  · unfold locate
    split
    case h_24 => split_ifs <;> simp
    all_goals
      rintro ⟨⟩
      exact BitVec.eq_of_toNat_eq ‹_›
  · rintro rfl
    cases r <;> rfl

/-- The reserved addresses (R49). -/
theorem locate_eq_reserved : locate a = .reserved ↔ 0x17 ≤ a.toNat ∧ a.toNat ≤ 0x3F := by
  unfold locate
  split
  case h_24 =>
    simp only [imp_false] at *
    split_ifs <;> simp <;> omega
  all_goals simp only [reduceCtorEq, false_iff]; omega

/-! ### Host reads -/

/-- An INBUF byte with a value reads as it (R40). -/
theorem Fcv.busValue_inbuf (i : Nat) (h : f.inbuf.read i = some v) : f.busValue (.inbuf i) = .byte v := by
  simp only [Fcv.busValue, h]

/-- An OUTBUF byte below OUTLEN with a value reads as it (R41). -/
theorem Fcv.busValue_outbuf (i : Nat) (hi : i < f.outlen.toNat) (h : f.outbuf.read i = some v) :
    f.busValue (.outbuf i) = .byte v := by
  simp only [Fcv.busValue, h, if_pos hi]

/-- A host read of a location with a byte of its own puts that byte on record and changes nothing else. -/
theorem step_read_byte (l : Location) (hl : locate a = l) (hv : s.fcv.busValue l = .byte v) :
    step (s.before (.access (.read a)) rest) =
      .next { s with schedule := rest, reads := s.reads ++ [(a, v)] } := by
  simp only [step_before_read, busRead, State.withSchedule_fcv, hl, hv]
  rfl

/-- Settles O34: each address has one location, and each location with a byte reads as that byte. -/
theorem hostReadsTheRegisterMap : Obligations.HostReadsTheRegisterMap := by
  unfold Obligations.HostReadsTheRegisterMap
  refine ⟨fun s rest a => ?_, rfl, rfl⟩
  have reg (r : Reg) (h : a = regAddr r) :
      step (s.before (.access (.read a)) rest) =
        .next { s with schedule := rest, reads := s.reads ++ [(a, s.fcv.readReg r)] } :=
    step_read_byte s a _ rest (.reg r) ((locate_eq_reg a r).mpr h) rfl
  exact ⟨reg .cmd, reg .status, reg .result, reg .seqstate, reg .saddr, reg .scfg, reg .smaxretry, reg .lastfail,
    reg .arg0, reg .arg1, reg .arg2, reg .inlen, reg .outlen, reg .numL, reg .numH, reg .attL, reg .attH,
    reg .fcntL, reg .fcntH, reg .exp0, reg .exp1, reg .act0, reg .act1,
    fun hlo hhi => step_read_byte s a _ rest .reserved ((locate_eq_reserved a).mpr ⟨hlo, hhi⟩) rfl,
    fun i v hi ha hr =>
      step_read_byte s a v rest (.inbuf i) ((locate_eq_inbuf a i).mpr ⟨hi, ha⟩) (s.fcv.busValue_inbuf v i hr),
    fun i v hi ha hr =>
      step_read_byte s a v rest (.outbuf i) ((locate_eq_outbuf a i).mpr ha) (s.fcv.busValue_outbuf v i hi hr)⟩

/-- Settles O37: a host read that answers writes only the record of values read and the draw counter. -/
theorem readsHaveNoSideEffect : Obligations.ReadsHaveNoSideEffect := by
  unfold Obligations.ReadsHaveNoSideEffect
  intro s t rest a h
  rw [step_before_read] at h
  obtain ⟨v, n, rfl⟩ := busRead_next _ t a h
  exact ⟨rfl, rfl, rfl, rfl, v, rfl⟩

/-! ### Host writes -/

/-- A host write while BUSY = 1 is refused, whatever its address (R53). -/
theorem busWrite_busy (h : s.fcv.busy = true) : busWrite a v s = .refused .hostWriteWhileBusy := by
  rw [busWrite, if_pos h]

/-- A host write while BUSY = 0 anywhere but at CMD stores its byte as its location does (R50). -/
theorem busWrite_idle (h : s.fcv.busy = false) (hl : locate a ≠ .reg .cmd) :
    busWrite a v s = .next (s.withFcv (s.fcv.storeByte (locate a) v)) := by
  rw [busWrite, if_neg (by simp [h]), if_neg hl]

/-- Nothing is stored at a register the host may only read, a reserved address or OUTBUF (R50). -/
theorem Fcv.storeByte_ignored
    (h : 0x01 ≤ a.toNat ∧ a.toNat ≤ 0x07 ∨ 0x0C ≤ a.toNat ∧ a.toNat ≤ 0x3F ∨ 0x80 ≤ a.toNat) :
    f.storeByte (locate a) v = f := by
  have notReg (r : Reg) (hr : 0x08 ≤ (regAddr r).toNat ∧ (regAddr r).toNat ≤ 0x0B) : locate a ≠ .reg r := by
    rw [Ne, locate_eq_reg]
    rintro rfl
    omega
  rcases f.storeByte_cases (locate a) v with he | ⟨hl, -⟩ | ⟨hl, -⟩ | ⟨hl, -⟩ | ⟨hl, -⟩ | ⟨i, hl, -⟩
  · exact he
  · exact absurd hl (notReg .arg0 (by decide))
  · exact absurd hl (notReg .arg1 (by decide))
  · exact absurd hl (notReg .arg2 (by decide))
  · exact absurd hl (notReg .inlen (by decide))
  · obtain ⟨hi, ha⟩ := (locate_eq_inbuf a i).mp hl
    omega

/-- Settles O24: neither the address nor the operation is looked at while BUSY = 1. -/
theorem hostWriteWhileBusyRefused : Obligations.HostWriteWhileBusyRefused := by
  unfold Obligations.HostWriteWhileBusyRefused
  intro s a v rest i hb
  rw [step_before_write]
  exact ⟨busWrite_busy (s.withSchedule rest) a v hb, exec_busy s i hb⟩

/-- Settles O38: the location of the address says what is stored, and only address 0x00 is CMD's. -/
theorem hostWritesStoreOrAreIgnored : Obligations.HostWritesStoreOrAreIgnored := by
  unfold Obligations.HostWritesStoreOrAreIgnored
  intro s rest a v hb
  have stores (l : Location) (hl : locate a = l) (hne : l ≠ .reg .cmd) :
      step (s.before (.access (.write a v)) rest) =
        .next ((s.withSchedule rest).withFcv (s.fcv.storeByte l v)) := by
    rw [step_before_write, busWrite_idle (s.withSchedule rest) a v hb (hl ▸ hne), hl]
    rfl
  have reg (r : Reg) (hne : r ≠ .cmd) (h : a = regAddr r) :=
    stores (.reg r) ((locate_eq_reg a r).mpr h) (by simpa using hne)
  refine ⟨reg .arg0 (by decide), reg .arg1 (by decide), reg .arg2 (by decide), reg .inlen (by decide),
    fun h => ?_, fun i hi ha => ?_⟩
  · have hne : locate a ≠ .reg .cmd := by
      rw [Ne, locate_eq_reg]
      rintro rfl
      simp [regAddr] at h
    simpa only [s.fcv.storeByte_ignored a v h] using stores _ rfl hne
  · refine ⟨_, stores (.inbuf i) ((locate_eq_inbuf a i).mpr ⟨hi, ha⟩) (by simp), ?_, fun j hj => ?_⟩
    · rw [Memory.read_write, if_pos rfl]
    · rw [Memory.read_write, if_neg (Ne.symm hj)]

end Sys2Proof.Machine
end

section
/-! The transport (spec 20_memory.md R63 to R67): all that a sequencer step, a reset and any step can do to it. -/

namespace Sys2Proof.Machine

variable (s t : State)

/-- The transport after an RxRead (R65). -/
def Transport.afterRead (l : Transport) : Transport := { l with rx := l.rx.tail }

/-- The transport after a TxWrite of `frame` answered `a` (R64). -/
def Transport.afterWrite (l : Transport) (frame : List Byte) (a : TxAnswer) : Transport :=
  { l with tx := l.tx.tail, sent := l.sent ++ [txRecord frame a] }

/-- The transport after a reset that cut a TxWrite of `frame` after `n` bytes (R142). -/
def Transport.afterCut (l : Transport) (frame : List Byte) (n : Nat) : Transport :=
  { l with sent := l.sent ++ [.cutByReset frame n] }

/-- The transport is its answers to come and its record. -/
theorem Transport.ext_fields {l m : Transport} (hrx : l.rx = m.rx) (htx : l.tx = m.tx) (hsent : l.sent = m.sent) :
    l = m := by
  cases l
  cases m
  rw [Transport.mk.injEq]
  exact ⟨hrx, htx, hsent⟩

/-- All that a sequencer step does to the transport: one read in AWAITING_REPLY, one write of the command frame in
SENDING, nothing elsewhere (R113 to R119). -/
theorem seqStep_line (h : seqStep s = .next t) :
    t.line = s.line ∨
    (s.fcv.seqstate = .awaitingReply ∧ t.line = s.line.afterRead) ∨
    (s.fcv.seqstate = .sending ∧ ∃ frame, s.fcv.commandFrame = some (.ok frame) ∧
      t.line = s.line.afterWrite frame s.nextTx) := by
  rcases seqStep_cases s t h with ⟨hs, frame, hf, -, hrx, htx, hsent⟩ | ⟨hs, -, hrx, htx, hsent⟩ |
    ⟨-, hl, -⟩ | ⟨-, -, hl⟩ | ⟨-, rfl⟩
  · exact .inr (.inr ⟨hs, frame, hf, Transport.ext_fields hrx htx hsent⟩)
  · exact .inr (.inl ⟨hs, Transport.ext_fields hrx htx hsent⟩)
  · exact .inl hl
  · exact .inl hl
  · exact .inl rfl

/-- All that a reset does to the transport (R142): in SENDING it cuts the write of the command frame. -/
theorem resetFcv_line (n : Nat) :
    (resetFcv n s).line = s.line ∨
    (s.fcv.seqstate = .sending ∧ ∃ frame, s.fcv.commandFrame = some (.ok frame) ∧
      (resetFcv n s).line = s.line.afterCut frame n) := by
  rw [resetFcv, State.withFcv_line, State.cutTx]
  split_ifs with hs
  · split
    · exact .inr ⟨hs, _, ‹_›, rfl⟩
    · exact .inl rfl
    · exact .inl rfl
  · exact .inl rfl

/-- The next answer to a TxWrite is the surroundings' alone (R64). -/
theorem State.nextTx_congr {s t : State} (hl : t.line = s.line) (hn : t.freeCount = s.freeCount) :
    t.nextTx = s.nextTx := by
  rw [State.nextTx, State.nextTx, hl, hn]

/-- All that a step does to the transport if it answers a next state. -/
theorem step_line (h : step s = .next t) :
    t.line = s.line ∨
    (SequencerTurn s ∧ s.fcv.seqstate = .awaitingReply ∧ t.line = s.line.afterRead) ∨
    (s.fcv.seqstate = .sending ∧ ∃ frame, s.fcv.commandFrame = some (.ok frame) ∧
      (SequencerTurn s ∧ t.line = s.line.afterWrite frame s.nextTx ∨
        ∃ n rest, s.schedule = .reset n :: rest ∧ t.line = s.line.afterCut frame n)) := by
  obtain ⟨s0, hf, -, hl, -, hn, hcases⟩ := step_cases s t h
  rw [← State.nextTx_congr hl hn, ← hf, ← hl]
  rcases hcases with ⟨t0, hseq, -, -, hlt, hturn⟩ | ⟨a, hread, -⟩ | ⟨v, i, rest, -, -, -, hexec⟩ |
    ⟨v, rest, -, -, -, hbad⟩ | ⟨a, v, rest, -, -, -, rfl⟩ | ⟨n, rest, hs, rfl⟩
  · have turn : SequencerTurn s := by
      rcases hturn with ⟨hs, -⟩ | ⟨rest, hs, -⟩ | ⟨rest, hs, -⟩
      · exact .inl hs
      · exact .inr (.inl ⟨rest, hs⟩)
      · exact .inr (.inr ⟨rest, hs⟩)
    rw [hlt]
    rcases seqStep_line s0 t0 hseq with hsame | ⟨hst, hrd⟩ | ⟨hst, frame, hfr, hwr⟩
    · exact .inl hsame
    · exact .inr (.inl ⟨turn, hst, hrd⟩)
    · exact .inr (.inr ⟨hst, frame, hfr, .inl ⟨turn, hwr⟩⟩)
  · obtain ⟨v, n, rfl⟩ := busRead_next s0 t a hread
    exact .inl rfl
  · obtain ⟨g, -, rfl⟩ := exec_next s0 t i hexec
    exact .inl rfl
  · rw [execBadOpcode_next s0 t v hbad]
    exact .inl rfl
  · exact .inl rfl
  · rcases resetFcv_line s0 n with hsame | ⟨hst, frame, hfr, hcut⟩
    · exact .inl hsame
    · exact .inr (.inr ⟨hst, frame, hfr, .inr ⟨n, rest, hs, hcut⟩⟩)

/-- Settles O51: field by field, from what a step can do to the transport as a whole. -/
theorem transportMovesOnlyBySequencerOrReset : Obligations.TransportMovesOnlyBySequencerOrReset := by
  unfold Obligations.TransportMovesOnlyBySequencerOrReset
  intro s t hstep
  rcases step_line s t hstep with hl | ⟨turn, hst, hl⟩ | ⟨hst, frame, hfr, ⟨turn, hl⟩ | ⟨n, rest, hs, hl⟩⟩ <;>
    rw [hl]
  · exact ⟨.inl rfl, .inl rfl, .inl rfl⟩
  · exact ⟨.inr ⟨turn, hst, rfl⟩, .inl rfl, .inl rfl⟩
  · exact ⟨.inl rfl, .inr ⟨turn, hst, rfl⟩, .inr ⟨hst, frame, hfr, .inl ⟨turn, rfl⟩⟩⟩
  · exact ⟨.inl rfl, .inl rfl, .inr ⟨hst, frame, hfr, .inr ⟨n, rest, hs, rfl⟩⟩⟩

end Sys2Proof.Machine
end

section
/-! Encodings (spec 30_encoding.md R69 to R72, R84, R85): which bytes are operation words, what a host write of one to
CMD runs, the step at `wait`, and the binary form of a host program. -/

namespace Sys2Proof.Machine

/-! ### Operation words -/

/-- A byte selects an operation exactly where it is that operation's opcode (R70). -/
theorem decodeByte_eq_some (v : Byte) (i : Instr) : decodeByte v = some i ↔ v = opcode i := by
  refine ⟨fun h => BitVec.eq_of_toNat_eq ?_, fun h => h ▸ decodeByte_opcode i⟩
  unfold decodeByte at h
  split at h
  case h_12 => cases h
  all_goals
    rename_i hv
    cases h
    exact hv

/-- The bytes that select no operation (R72). -/
theorem decodeByte_eq_none (v : Byte) : decodeByte v = none ↔ v.toNat = 0 ∨ 0x0C ≤ v.toNat := by
  unfold decodeByte
  split
  case h_12 =>
    simp only [imp_false] at *
    simp only [true_iff]
    omega
  all_goals simp only [reduceCtorEq, false_iff]; omega

/-- A byte string decodes to an operation exactly where its first byte is that operation's word (R69, R70). -/
theorem decode_eq_ok (bytes : List Byte) (i : Instr) (rest : List Byte) :
    decode bytes = .ok i rest ↔ bytes = encode i ++ rest := by
  cases bytes with
  | nil => simp [decode, encode]
  | cons v tail =>
    have hv := decodeByte_eq_some v i
    cases hd : decodeByte v <;> simp [decode, encode, ← hv, hd]

/-- An operation's word and the bytes after it decode to the operation and those bytes (R69, R70). -/
theorem decode_encode (i : Instr) (rest : List Byte) : decode (encode i ++ rest) = .ok i rest :=
  (decode_eq_ok _ i rest).2 rfl

/-- A byte is rejected as an illegal word exactly where it selects no operation (R72). -/
theorem decode_eq_badOpcode (v : Byte) : decode [v] = .badOpcode v ↔ v.toNat = 0 ∨ 0x0C ≤ v.toNat := by
  rw [← decodeByte_eq_none]
  cases hd : decodeByte v <;> simp [decode, hd]

/-- A word of eight bits, read from the opcode table, is decoded as one byte. -/
theorem decodeTableWord_eight (w : Nat) : decodeTableWord 8 w = decodeByte (BitVec.ofNat 8 (w % 2 ^ 8)) := by
  rw [decodeTableWord, show wordBytes (max 1 (8 / 8)) (w % 2 ^ 8) = [BitVec.ofNat 8 (w % 2 ^ 8)] from rfl, decode]
  cases decodeByte (BitVec.ofNat 8 (w % 2 ^ 8)) <;> rfl

/-- Settles O1: each word of the map is the encoding of its operation. -/
theorem operationWordsDecode : Obligations.OperationWordsDecode :=
  ⟨decode_encode .configure [], decode_encode .hexify [], decode_encode .unhexify [], decode_encode .checksum [],
    decode_encode .encode [], decode_encode .decode [], decode_encode .send [], decode_encode .receive [],
    decode_encode .query [], decode_encode .queryRetry [], decode_encode .command []⟩

/-- Settles O2: `decode` answers an operation exactly for its word, and a rejection exactly for an illegal one. -/
theorem decodeEncodeAgree : Obligations.DecodeEncodeAgree :=
  ⟨fun i rest _ => decode_encode i rest, fun bytes i rest => (decode_eq_ok bytes i rest).1, decode_eq_badOpcode⟩

/-! ### Host writes to CMD -/

variable (s : State) (v : Byte)

theorem busWrite_cmd_idle (h : s.fcv.busy = false) : busWrite (regAddr .cmd) v s = writeCmd v s := by
  simp [busWrite, h, locate_eq_reg]

theorem writeCmd_opcode (i : Instr) : writeCmd (opcode i) s = exec i s := by
  rw [writeCmd, show decode [opcode i] = .ok i [] from decode_encode i []]

/-- A host write of an operation's word to CMD runs that operation, and is refused while BUSY = 1 as the operation
is (R53, R71). -/
theorem busWrite_cmd_opcode (i : Instr) : busWrite (regAddr .cmd) (opcode i) s = exec i s := by
  cases h : s.fcv.busy with
  | true => rw [busWrite_busy _ _ _ h, exec_busy s i h]
  | false => rw [busWrite_cmd_idle s _ h, writeCmd_opcode]

/-- The step after `scheduleWord` is the host write it put there. -/
theorem step_scheduleWord : step (s.scheduleWord v) = busWrite (regAddr .cmd) v s := rfl

/-- Settles O39: both steps are the host write of the operation's word to CMD. -/
theorem stepRunsDecodedInstruction : Obligations.StepRunsDecodedInstruction := by
  intro s i v
  refine ⟨fun rest tail hd => ?_, fun w hw => ?_⟩
  · obtain ⟨rfl, -⟩ := List.cons.inj ((decode_eq_ok [v] i tail).1 hd)
    rw [step_before_write]
    exact busWrite_cmd_opcode _ i
  · rw [decodeTableWord_eight, decodeByte_eq_some] at hw
    rw [State.withFetchWord, hw, step_scheduleWord, busWrite_cmd_opcode]

/-- An illegal word written to CMD while BUSY = 0 is stored, clears the registers of R44 and fails (R71, R72). -/
theorem writeCmd_illegal (h : s.fcv.busy = false) (hv : v.toNat = 0 ∨ 0x0C ≤ v.toNat) :
    writeCmd v s = .next (s.withFcv ((s.fcv.issued v).finish .failed .badOpcode)) := by
  rw [writeCmd, (decode_eq_badOpcode v).2 hv]
  exact s.issue_idle v _ h

/-- Ending an issue with no value, no output and no error information changes nothing but SEQSTATE and RESULT. -/
theorem issued_finish_endsAtIssue (st : SeqState) (r : ResultCode) :
    EndsAtIssue s (s.withFcv ((s.fcv.issued v).finish st r)) v st r 0 [] where
  issued :=
    { surroundings := ⟨rfl, rfl, rfl, rfl, rfl⟩
      operands := ⟨rfl, rfl, rfl, rfl, fun _ => rfl⟩
      cmd := rfl
      seqstate := rfl
      result := rfl
      bool := rfl
      num := rfl
      outlen := rfl
      outbuf := fun _ hi => absurd hi (Nat.not_lt_zero _)
      outbufRest := fun _ _ => rfl
      failcnt := rfl
      rxphase := rfl
      rxbuf := rfl }
  session := ⟨rfl, rfl, rfl, rfl⟩
  attempts := rfl
  noFailure := ⟨rfl, rfl, rfl⟩

/-- Settles O23: the write is the issue of the illegal word, which ends at once. -/
theorem illegalWordEndsWithBadOpcode : Obligations.IllegalWordEndsWithBadOpcode := by
  intro s v rest hb hv
  refine ⟨_, ?_, issued_finish_endsAtIssue (s.withSchedule rest) v .failed .badOpcode⟩
  calc step (s.before (.access (.write 0x00 v)) rest)
    _ = busWrite (regAddr .cmd) v (s.withSchedule rest) := rfl
    _ = writeCmd v (s.withSchedule rest) := busWrite_cmd_idle _ v hb
    _ = _ := writeCmd_illegal _ v hb hv

/-! ### The polling loop -/

/-- `wait` while BUSY = 1: what the sequencer does, and `wait` scheduled again (R84). -/
theorem runWait_busy (t : State) (h : s.fcv.busy = true) (ht : seqStep s = .next t) :
    runWait s = .next (t.before .wait s.schedule) := by
  obtain ⟨-, hsched, -⟩ := seqStep_surroundings s t ht
  simp [runWait, h, ht, State.before, hsched]

/-- `wait` while BUSY = 0: the last poll (R84). -/
theorem runWait_idle (h : s.fcv.busy = false) : runWait s = busRead (regAddr .status) s := by
  simp [runWait, h]

/-- Settles O40: the step at `wait`, by BUSY. -/
theorem waitPollsUntilIdle : Obligations.WaitPollsUntilIdle :=
  fun s rest =>
    ⟨fun hb t ht => runWait_busy (s.withSchedule rest) t hb ht, fun hb => runWait_idle (s.withSchedule rest) hb⟩

/-! ### The binary form -/

theorem hexval_hexdigit (d : Nibble) : hexval (hexdigit d) = some d.toNat := by
  revert d; decide

/-- A byte's value from its two nibbles. -/
theorem nibbles_value (b : Byte) : 16 * (b.extractLsb' 4 4).toNat + (b.extractLsb' 0 4).toNat = b.toNat := by
  have hb := b.isLt
  simp only [BitVec.extractLsb'_toNat, Nat.shiftRight_eq_div_pow]
  omega

/-- The hex field of a byte reads back as the byte's value (R86, R87). -/
theorem unhexify_hexField (b : Byte) : unhexify (hexField b) = .ok b.toNat := by
  simp only [unhexify, hexField, hexval_hexdigit, nibbles_value]

theorem hexByte_hexdigits (b : Byte) :
    hexByte (hexdigit (b.extractLsb' 4 4)) (hexdigit (b.extractLsb' 0 4)) = some b := by
  have h := unhexify_hexField b
  rw [hexField] at h
  simp [hexByte, h]

/-- The text of one bus transaction reads as that transaction, before those of the text after it (R85). -/
theorem parseBinary_binaryAccess (b : BusAccess) (text : List Byte) :
    parseBinary (binaryAccess b ++ text) = consAccess (some b) (parseBinary text) := by
  cases b with
  | read a => simp [binaryAccess, hexField, parseBinary, readForm, hexByte_hexdigits]
  | write a v => simp [binaryAccess, hexField, parseBinary, writeForm, hexByte_hexdigits]

/-- Settles O6, by induction on the list of bus transactions. -/
theorem binaryFormReadsBack : Obligations.BinaryFormReadsBack := by
  intro bs
  induction bs with
  | nil => rfl
  | cons b bs ih =>
    calc parseBinary (binaryForm (b :: bs))
      _ = parseBinary (binaryAccess b ++ binaryForm bs) := rfl
      _ = consAccess (some b) (parseBinary (binaryForm bs)) := parseBinary_binaryAccess b _
      _ = some (b :: bs) := by rw [ih, consAccess]

end Sys2Proof.Machine
end

section
/-! The codec functions on bytes and sums (spec 40_codec.md R86 to R91, R103): the closed form of the checksum
reduction, from which its other properties follow, and the two tables of hex digits, as byte values. -/

namespace Sys2Proof.Machine

/-! ### The checksum reduction -/

/-- The reduction loop by its closed form, wherever the bound on its runs cuts nothing off (R89, R90). -/
theorem ckreduceLoop_closed (k s : Nat) (h : s ≤ 256 * (k + 1)) :
    ckreduceLoop k s = if s ≤ 256 then s else (s - 1) % 256 + 1 := by
  induction k generalizing s with
  | zero => rw [ckreduceLoop, if_pos (by omega)]
  | succ k ih =>
    rw [ckreduceLoop]
    by_cases hs : 256 < s
    · rw [if_pos hs, ih _ (by omega)]
      split_ifs <;> omega
    · rw [if_neg hs, if_pos (by omega)]

/-- The closed form of the reduction (R90). -/
theorem ckreduce_closed (s : Nat) : ckreduce s = if s ≤ 256 then s else (s - 1) % 256 + 1 :=
  ckreduceLoop_closed _ _ (by omega)

/-- The reduction is the loop of R89, whatever the sum. -/
theorem ckreduce_step (s : Nat) : ckreduce s = if 256 < s then ckreduce (s - 256) else s := by
  simp only [ckreduce_closed]
  split_ifs <;> omega

/-- What the reduction is, by a bound and two properties: in 0..256, zero only for zero, and congruent modulo 256. -/
theorem ckreduce_eq_iff (s r : Nat) : ckreduce s = r ↔ r ≤ 256 ∧ (r = 0 ↔ s = 0) ∧ r % 256 = s % 256 := by
  rw [ckreduce_closed]
  split_ifs <;> omega

theorem ckreduce_spec (s : Nat) : ckreduce s ≤ 256 ∧ (ckreduce s = 0 ↔ s = 0) ∧ ckreduce s % 256 = s % 256 :=
  (ckreduce_eq_iff s _).mp rfl

/-- Reducing a sum before adding to it does not change the reduced total (R90). -/
theorem ckreduce_ckreduce_add (s n : Nat) : ckreduce (ckreduce s + n) = ckreduce (s + n) := by
  obtain ⟨-, hzero, hmod⟩ := ckreduce_spec s
  obtain ⟨hle, hzero', hmod'⟩ := ckreduce_spec (s + n)
  exact (ckreduce_eq_iff _ _).mpr ⟨hle, by omega, by omega⟩

/-! ### The sum and the raw checksum -/

theorem cksumSum_eq_sum (bytes : List Byte) : cksumSum bytes = (bytes.map BitVec.toNat).sum := by
  induction bytes with
  | nil => rfl
  | cons b bytes ih => rw [cksumSum, ih, List.map_cons, List.sum_cons]

theorem cksumSum_append (x y : List Byte) : cksumSum (x ++ y) = cksumSum x + cksumSum y := by
  simp only [cksumSum_eq_sum, List.map_append, List.sum_append]

/-- Reducing after every byte, from a sum already reduced, gives the reduction of the whole sum (R90). -/
theorem foldl_ckreduce (s : Nat) (bytes : List Byte) :
    bytes.foldl (fun acc b => ckreduce (acc + b.toNat)) (ckreduce s) = ckreduce (s + cksumSum bytes) := by
  induction bytes generalizing s with
  | nil => rfl
  | cons b bytes ih => rw [List.foldl_cons, ckreduce_ckreduce_add, ih, cksumSum, Nat.add_assoc]

/-- Settles O10. -/
theorem checksumIsTheReductionLoop : Obligations.ChecksumIsTheReductionLoop :=
  ⟨ckreduce_step, fun bytes => by rw [ckraw, cksumSum_eq_sum]⟩

/-- Settles O11: all but the closed form and the fold follow from what the reduction is. -/
theorem checksumClosedForm : Obligations.ChecksumClosedForm := by
  refine ⟨fun s => ⟨ckreduce_closed s, (ckreduce_spec s).2.2⟩, fun bytes => ?_⟩
  obtain ⟨hle, hzero, hmod⟩ := ckreduce_spec (cksumSum bytes)
  have hfold := foldl_ckreduce 0 bytes
  rw [Nat.zero_add] at hfold
  exact ⟨hle, hzero, by unfold ckraw; omega, by unfold ckraw; omega, hfold⟩

/-- Equal answers of the checksum function come from equal raw checksums (R91). -/
theorem ckraw_eq_of_checksum_eq (x y : List Byte) (h : checksum x = checksum y) : ckraw x = ckraw y := by
  have hx := ckraw_le x
  have hy := ckraw_le y
  rw [checksum_eq, checksum_eq] at h
  split_ifs at h with h1 h2 h2
  · rw [h1, h2]
  · have hbytes := hexField_injective _ _ (CodecResult.ok.inj h)
    have hval := congrArg BitVec.toNat hbytes
    rw [BitVec.toNat_ofNat, BitVec.toNat_ofNat] at hval
    omega

/-- Settles O12: equal checksums would make the two sums congruent modulo 256, and so the two bytes equal. -/
theorem singleByteChangeChangesChecksum : Obligations.SingleByteChangeChangesChecksum := by
  intro before after x y hne heq
  have hmod (b : Byte) : ckraw (before ++ b :: after) % 256 = (cksumSum before + (b.toNat + cksumSum after)) % 256 := by
    rw [ckraw, (ckreduce_spec _).2.2, cksumSum_append, cksumSum]
  have hx := hmod x
  have hy := hmod y
  rw [ckraw_eq_of_checksum_eq _ _ heq] at hx
  have := x.isLt
  have := y.isLt
  exact hne (BitVec.eq_of_toNat_eq (by omega))

/-! ### Hex digits -/

/-- The digits of R10, at the index of their value. -/
def upperDigits : List Byte :=
  [0x30, 0x31, 0x32, 0x33, 0x34, 0x35, 0x36, 0x37, 0x38, 0x39, 0x41, 0x42, 0x43, 0x44, 0x45, 0x46]

/-- The digits of R10 with small letters, which `unhexify` accepts too (R87). -/
def lowerDigits : List Byte :=
  [0x30, 0x31, 0x32, 0x33, 0x34, 0x35, 0x36, 0x37, 0x38, 0x39, 0x61, 0x62, 0x63, 0x64, 0x65, 0x66]

theorem upperDigits_getElem? (v : Nat) (c : Byte) :
    upperDigits[v]? = some c ↔ v < 10 ∧ c.toNat = 0x30 + v ∨ 10 ≤ v ∧ v < 16 ∧ c.toNat = 0x37 + v := by
  by_cases hv : v < 16
  · interval_cases v <;> simp [upperDigits, ← BitVec.toNat_inj, eq_comm]
  · rw [List.getElem?_eq_none (by simpa [upperDigits] using hv)]
    simp only [reduceCtorEq, false_iff]
    omega

theorem lowerDigits_getElem? (v : Nat) (c : Byte) :
    lowerDigits[v]? = some c ↔ v < 10 ∧ c.toNat = 0x30 + v ∨ 10 ≤ v ∧ v < 16 ∧ c.toNat = 0x57 + v := by
  by_cases hv : v < 16
  · interval_cases v <;> simp [lowerDigits, ← BitVec.toNat_inj, eq_comm]
  · rw [List.getElem?_eq_none (by simpa [lowerDigits] using hv)]
    simp only [reduceCtorEq, false_iff]
    omega

/-- A digit's value is its index in one of the two tables (R87). -/
theorem hexval_eq_some (c : Byte) (v : Nat) :
    hexval c = some v ↔ upperDigits[v]? = some c ∨ lowerDigits[v]? = some c := by
  rw [upperDigits_getElem?, lowerDigits_getElem?, hexval]
  split_ifs <;> simp only [Option.some.injEq, false_iff] <;> omega

/-- A digit that is no small letter stands in the table of R10 at its value. -/
theorem upperDigits_of_hexval (c : Byte) (v : Nat)
    (hc : 0x30 ≤ c.toNat ∧ c.toNat ≤ 0x39 ∨ 0x41 ≤ c.toNat ∧ c.toNat ≤ 0x46) (h : hexval c = some v) :
    upperDigits[v]? = some c := by
  rw [hexval_eq_some, lowerDigits_getElem?, upperDigits_getElem?] at h
  rw [upperDigits_getElem?]
  omega

/-- `hexdigit` reads the table of R10. -/
theorem upperDigits_hexdigit (d : Nibble) : upperDigits[d.toNat]? = some (hexdigit d) := by
  revert d; decide

/-- The nibbles of a byte given as a number. -/
theorem nibbles_toNat_ofNat (n : Nat) (hn : n ≤ 255) :
    ((BitVec.ofNat 8 n).extractLsb' 4 4).toNat = n / 16 ∧ ((BitVec.ofNat 8 n).extractLsb' 0 4).toNat = n % 16 := by
  simp only [BitVec.extractLsb'_toNat, BitVec.toNat_ofNat, Nat.shiftRight_eq_div_pow]
  omega

/-- The two digits of a number up to 255 are the table's at its quotient and its remainder by 16 (R86). -/
theorem hexifyByte_eq_ok (n : Nat) (hn : n ≤ 255) (h l : Byte) (hh : upperDigits[n / 16]? = some h)
    (hl : upperDigits[n % 16]? = some l) : hexifyByte n = .ok [h, l] := by
  obtain ⟨hhigh, hlow⟩ := nibbles_toNat_ofNat n hn
  rw [← hhigh, upperDigits_hexdigit, Option.some.injEq] at hh
  rw [← hlow, upperDigits_hexdigit, Option.some.injEq] at hl
  rw [hexifyByte, if_neg (by omega), hexField, hh, hl]

theorem hexifyByte_large (n : Nat) (hn : 255 < n) : hexifyByte n = .err .rangeError noInfo := if_pos hn

/-- Settles O7: both indices lie in the table, and `hexifyByte` answers its two digits there. -/
theorem hexifyByteTwoDigits : Obligations.HexifyByteTwoDigits := by
  refine fun n => ⟨hexifyByte_large n, fun hn => ?_⟩
  have hdigit (v : Nat) (hv : v < 16) : ∃ c, upperDigits[v]? = some c := ⟨_, List.getElem?_eq_getElem hv⟩
  obtain ⟨h, hh⟩ := hdigit (n / 16) (by omega)
  obtain ⟨l, hl⟩ := hdigit (n % 16) (by omega)
  exact ⟨h, l, hexifyByte_eq_ok n hn h l hh hl, hh, hl⟩

/-! ### Reading hex digits -/

/-- `unhexify` answers a number exactly for two digits, whose values make it up (R87). -/
theorem unhexify_eq_ok (s : List Byte) (n : Nat) :
    unhexify s = .ok n ↔
      ∃ c1 c0 h l, s = [c1, c0] ∧ hexval c1 = some h ∧ hexval c0 = some l ∧ n = 16 * h + l := by
  constructor
  · intro hs
    unfold unhexify at hs
    split at hs
    · split at hs
      · next h l hh hl => exact ⟨_, _, h, l, rfl, hh, hl, (CodecResult.ok.inj hs).symm⟩
      · cases hs
    · cases hs
  · rintro ⟨c1, c0, h, l, rfl, hh, hl, rfl⟩
    simp only [unhexify, hh, hl]

/-- Whatever `unhexify` does not accept is FORMAT_ERROR, with no information (R87). -/
theorem unhexify_rejects (s : List Byte) (h : ¬ ∃ n, unhexify s = .ok n) :
    unhexify s = .err .formatError noInfo := by
  cases hs : unhexify s with
  | ok n => exact absurd ⟨n, hs⟩ h
  | err c info =>
    unfold unhexify at hs
    split at hs
    · split at hs
      · cases hs
      · exact hs.symm
    · exact hs.symm

/-- Settles O8. -/
theorem unhexifyAcceptsExactly : Obligations.UnhexifyAcceptsExactly := by
  refine fun s => ⟨fun n => ?_, unhexify_rejects s⟩
  simp only [unhexify_eq_ok, hexval_eq_some]
  rfl

/-- Settles O9: `unhexify` reads back what `hexField` writes, and capital digits stand in the table that `hexifyByte`
writes from; the small letters of the last clause do not. -/
theorem hexRoundTrips : Obligations.HexRoundTrips := by
  refine ⟨fun n hn => ?_, fun c1 c0 n h1 h0 hn => ?_, rfl, rfl⟩
  · rw [unhexify_hexField, BitVec.toNat_ofNat, Nat.mod_eq_of_lt (by omega)]
  · obtain ⟨d1, d0, h, l, hd, hh, hl, rfl⟩ := (unhexify_eq_ok _ _).mp hn
    obtain ⟨rfl, rfl⟩ : c1 = d1 ∧ c0 = d0 := by simpa using hd
    have hhigh := upperDigits_of_hexval c1 h h1 hh
    have hlow := upperDigits_of_hexval c0 l h0 hl
    obtain ⟨hhlt, -⟩ := List.getElem?_eq_some_iff.mp hhigh
    obtain ⟨hllt, -⟩ := List.getElem?_eq_some_iff.mp hlow
    have hlen : upperDigits.length = 16 := rfl
    apply hexifyByte_eq_ok _ (by omega)
    · rwa [show (16 * h + l) / 16 = h by omega]
    · rwa [show (16 * h + l) % 16 = l by omega]

end Sys2Proof.Machine
end

section
/-! The frames of the codec (spec 40_codec.md R92 to R97, 30_encoding.md R77 to R79): `encodeCommand` by the command
layout, and `decodeReply` on a frame whose bounds and fields are in view. -/

namespace Sys2Proof.Machine

/-! ### Command frames -/

theorem commandLayout_eq (a : Byte) (p : List Byte) :
    commandLayout a p = [Config.cmdStart] ++ hexField a ++ p ++
      hexField (BitVec.ofNat 8 (ckraw (hexField a ++ p))) ++ [Config.term] := rfl

/-- A command frame is six bytes longer than its payload (R77). -/
theorem commandLayout_length (a : Byte) (p : List Byte) : (commandLayout a p).length = p.length + 6 := by
  simp only [commandLayout, List.length_append, List.length_cons, List.length_nil, hexField_length]
  omega

/-- A command frame is built where its raw checksum is not 256 (R92). -/
theorem encodeCommand_ok (a : Byte) (p : List Byte) (h : ckraw (hexField a ++ p) ≠ 256) :
    encodeCommand a p = .ok (commandLayout a p) := by
  rw [encodeCommand_eq, if_neg h, commandLayout_eq]

/-- A raw checksum of 256 cannot be sent (R91, R92). -/
theorem encodeCommand_range (a : Byte) (p : List Byte) (h : ckraw (hexField a ++ p) = 256) :
    encodeCommand a p = .err .rangeError (numInfo 256) := by
  rw [encodeCommand_eq, if_pos h]

/-- Settles O5. -/
theorem encodeCommandBuildsLayout : Obligations.EncodeCommandBuildsLayout :=
  fun a p => ⟨encodeCommand_ok a p, encodeCommand_range a p, commandLayout_length a p⟩

/-! ### The checks on a reply -/

/-- The body of a frame: what stands between its start character and its terminator. -/
theorem slice_body (c : Byte) (body : List Byte) (d : Byte) :
    slice (c :: body ++ [d]) 1 ((c :: body ++ [d]).length - 1) = body := by
  simp [slice]

/-- A frame between `#` and CR is judged by its body: first its length (R94), then the rest (R95, R96). -/
theorem decodeReply_framed (body : List Byte) (e : Byte) (cken : Bool) :
    decodeReply (0x23#8 :: body ++ [0x0D#8]) e cken =
      if body.length < (if cken = true then 4 else 2) then .err .framingError noInfo
      else checkReplyBody body e cken := by
  have hlast : (0x23#8 :: body ++ [0x0D#8])[(0x23#8 :: body ++ [0x0D#8]).length - 1]? = some Config.term := by
    simp
  unfold decodeReply
  rw [slice_body, if_neg (by simp), if_neg (not_not.mpr hlast)]

/-- A string that `#` starts and CR ends is a frame with some body. -/
theorem framed_of_ends (f : List Byte) (hfirst : f[0]? = some 0x23#8) (hlast : f[f.length - 1]? = some 0x0D#8) :
    ∃ body, f = 0x23#8 :: body ++ [0x0D#8] := by
  cases f with
  | nil => simp at hfirst
  | cons c tail =>
    obtain rfl : c = 0x23#8 := by simpa using hfirst
    rcases List.eq_nil_or_concat tail with rfl | ⟨body, d, rfl⟩
    · simp at hlast
    · obtain rfl : d = 0x0D#8 := by simpa using hlast
      exact ⟨body, by simp⟩

/-- A string that is no frame between `#` and CR fails the shape check (R94). -/
theorem decodeReply_unframed (f : List Byte) (e : Byte) (cken : Bool)
    (h : ¬ ∃ body, f = 0x23#8 :: body ++ [0x0D#8]) : decodeReply f e cken = .err .framingError noInfo := by
  unfold decodeReply
  by_cases hfirst : f.length < 1 ∨ f[0]? ≠ some Config.replyStart
  · rw [if_pos hfirst]
  · rw [if_neg hfirst]
    have hhash : f[0]? = some Config.replyStart := not_not.mp (not_or.mp hfirst).2
    have hlast : f[f.length - 1]? ≠ some Config.term := fun hcr => h (framed_of_ends f hhash hcr)
    rw [if_pos hlast]

/-- The checks on a body whose address field is in view (R95), its checksum left to its own check (R96). -/
theorem checkReplyBody_fields (af rest : List Byte) (e : Byte) (cken : Bool) (haf : af.length = 2) :
    checkReplyBody (af ++ rest) e cken =
      if af ≠ hexField e then
        .err .addressMismatch { exp := firstTwo (hexField e), act := firstTwo af, num := 0 }
      else if cken = true then checkReplyChecksum (af ++ rest) else .ok rest := by
  have haddr : slice (af ++ rest) 0 2 = af := by simp [slice, ← haf]
  have hrest : slice (af ++ rest) 2 (af ++ rest).length = rest := by simp [slice, ← haf]
  simp only [checkReplyBody, haddr, hrest]

/-- The checksum check on a body whose three fields are in view (R96). -/
theorem checkReplyChecksum_fields (af p ck : List Byte) (haf : af.length = 2) (hck : ck.length = 2) :
    checkReplyChecksum (af ++ (p ++ ck)) =
      if ckraw (af ++ p) = 256 then .err .rangeError (numInfo 256)
      else if ck ≠ hexField (BitVec.ofNat 8 (ckraw (af ++ p))) then
        .err .checksumError
          { exp := firstTwo (hexField (BitVec.ofNat 8 (ckraw (af ++ p)))), act := firstTwo ck,
            num := BitVec.ofNat 16 (ckraw (af ++ p)) }
      else .ok p := by
  have hlen : (af ++ (p ++ ck)).length - 2 = 2 + p.length := by simp; omega
  have haddr : slice (af ++ (p ++ ck)) 0 2 = af := by simp [slice, ← haf]
  have hpayload : slice (af ++ (p ++ ck)) 2 (2 + p.length) = p := by simp [slice, ← haf]
  have hfield : slice (af ++ (p ++ ck)) (2 + p.length) (af ++ (p ++ ck)).length = ck := by
    rw [slice, ← haf, List.drop_length_add_append, List.drop_left]
    exact List.take_of_length_le (by simp; omega)
  simp only [checkReplyChecksum, hlen, haddr, hpayload, hfield]

/-- The reply layout as a frame around its fields; the checksum field is there where CKEN = 1 (R78, R79). -/
theorem replyLayout_eq (e : Byte) (p : List Byte) (cken : Bool) :
    replyLayout e p cken = 0x23#8 :: (hexField e ++ (p ++
      if cken = true then hexField (BitVec.ofNat 8 (ckraw (hexField e ++ p))) else [])) ++ [0x0D#8] := by
  cases cken <;> simp [replyLayout]

/-- A reply frame from the expected address decodes to its payload (R97). -/
theorem decodeReply_replyLayout (e : Byte) (p : List Byte) (cken : Bool)
    (h : cken = true → ckraw (hexField e ++ p) ≠ 256) : decodeReply (replyLayout e p cken) e cken = .ok p := by
  rw [replyLayout_eq, decodeReply_framed, if_neg, checkReplyBody_fields _ _ _ _ (hexField_length e)]
  · cases cken with
    | false => simp
    | true =>
      rw [if_neg (not_not.mpr rfl), if_pos rfl, if_pos rfl,
        checkReplyChecksum_fields _ _ _ (hexField_length e) (hexField_length _), if_neg (h rfl)]
      simp
  · cases cken <;> simp <;> omega

/-- What passes the checksum check ends with the payload's checksum field (R96). -/
theorem checkReplyChecksum_ok (af rest p : List Byte) (haf : af.length = 2) (hlen : 2 ≤ rest.length)
    (h : checkReplyChecksum (af ++ rest) = .ok p) :
    rest = p ++ hexField (BitVec.ofNat 8 (ckraw (af ++ p))) ∧ ckraw (af ++ p) ≠ 256 := by
  obtain ⟨q, ck, rfl, hck⟩ : ∃ q ck, rest = q ++ ck ∧ ck.length = 2 :=
    ⟨rest.take (rest.length - 2), rest.drop (rest.length - 2), by simp, by simp; omega⟩
  rw [checkReplyChecksum_fields _ _ _ haf hck] at h
  split_ifs at h with hraw hfield
  obtain rfl := CodecResult.ok.inj h
  exact ⟨by rw [← not_not.mp hfield], hraw⟩

/-- What passes the checks on the body has the expected address and, where CKEN = 1, the payload's checksum field
(R95, R96). -/
theorem checkReplyBody_ok (body : List Byte) (e : Byte) (cken : Bool) (p : List Byte)
    (hlen : ¬ body.length < (if cken = true then 4 else 2)) (h : checkReplyBody body e cken = .ok p) :
    body = hexField e ++ (p ++ if cken = true then hexField (BitVec.ofNat 8 (ckraw (hexField e ++ p))) else []) ∧
      (cken = true → ckraw (hexField e ++ p) ≠ 256) := by
  obtain ⟨af, rest, rfl, haf⟩ : ∃ af rest, body = af ++ rest ∧ af.length = 2 :=
    ⟨body.take 2, body.drop 2, by simp, by split at hlen <;> simp <;> omega⟩
  rw [checkReplyBody_fields af rest e cken haf] at h
  split_ifs at h with haddr hck <;> obtain rfl := not_not.mp haddr
  · simp only [hck, if_true, List.length_append, haf] at hlen ⊢
    obtain ⟨rfl, hraw⟩ := checkReplyChecksum_ok _ rest p haf (by omega) h
    exact ⟨rfl, fun _ => hraw⟩
  · obtain rfl := CodecResult.ok.inj h
    simp [hck]

/-- What decodes is a reply frame from the expected address (R93 to R97). -/
theorem eq_replyLayout_of_decodeReply (f : List Byte) (e : Byte) (cken : Bool) (p : List Byte)
    (h : decodeReply f e cken = .ok p) :
    f = replyLayout e p cken ∧ (cken = true → ckraw (hexField e ++ p) ≠ 256) := by
  by_cases hf : ∃ body, f = 0x23#8 :: body ++ [0x0D#8]
  · obtain ⟨body, rfl⟩ := hf
    rw [decodeReply_framed] at h
    by_cases hlen : body.length < (if cken = true then 4 else 2)
    · rw [if_pos hlen] at h
      cases h
    · rw [if_neg hlen] at h
      obtain ⟨hbody, hraw⟩ := checkReplyBody_ok body e cken p hlen h
      exact ⟨by rw [replyLayout_eq, ← hbody], hraw⟩
  · rw [decodeReply_unframed f e cken hf] at h
    cases h

/-- Settles O3: a frame decodes exactly where its fields are those of the layout. -/
theorem decodeReplyAcceptsExactly : Obligations.DecodeReplyAcceptsExactly := by
  refine fun f e cken p => ⟨eq_replyLayout_of_decodeReply f e cken p, ?_⟩
  rintro ⟨rfl, hraw⟩
  exact decodeReply_replyLayout e p cken hraw

/-! ### The failures of decodeReply -/

/-- A reply from another address, whatever its checksum (R95). -/
theorem decodeReply_mismatch (af rest : List Byte) (e : Byte) (cken : Bool) (haf : af.length = 2)
    (hlen : cken = true → 2 ≤ rest.length) (hne : af ≠ hexField e) :
    decodeReply (0x23#8 :: (af ++ rest) ++ [0x0D#8]) e cken =
      .err .addressMismatch { exp := firstTwo (hexField e), act := firstTwo af, num := 0 } := by
  have hshape : ¬ (af ++ rest).length < (if cken = true then 4 else 2) := by
    rw [List.length_append, haf]
    cases cken with
    | false => exact Nat.not_lt.mpr (Nat.le_add_right 2 _)
    | true => exact Nat.not_lt.mpr (Nat.add_le_add_left (hlen rfl) 2)
  rw [decodeReply_framed, if_neg hshape, checkReplyBody_fields _ _ _ _ haf, if_pos hne]

/-- A reply from the expected address, its two checksum digits in view: what the checksum check says (R96). -/
theorem decodeReply_checked (p : List Byte) (c0 c1 e : Byte) :
    decodeReply (0x23#8 :: hexField e ++ p ++ [c0, c1, 0x0D#8]) e true =
      checkReplyChecksum (hexField e ++ (p ++ [c0, c1])) := by
  have hframe : 0x23#8 :: hexField e ++ p ++ [c0, c1, 0x0D#8] =
      0x23#8 :: (hexField e ++ (p ++ [c0, c1])) ++ [0x0D#8] := by simp
  have hshape : ¬ (hexField e ++ (p ++ [c0, c1])).length < (if true = true then 4 else 2) := by simp; omega
  rw [hframe, decodeReply_framed, if_neg hshape, checkReplyBody_fields _ _ _ _ (hexField_length e)]
  simp

/-- Settles O4: the shape, the address and the checksum, in the order in which `decodeReply` checks them. -/
theorem decodeReplyFailsInOrder : Obligations.DecodeReplyFailsInOrder := by
  refine ⟨decodeReply_unframed, fun body e cken hlen => ?_, fun a0 a1 rest e cken hlen hne => ?_,
    fun p c0 c1 e hraw => ?_, fun p c0 c1 e hraw hne => ?_⟩
  · rw [decodeReply_framed, if_pos hlen]
  · exact decodeReply_mismatch [a0, a1] rest e cken rfl hlen hne
  · rw [decodeReply_checked, checkReplyChecksum_fields _ _ _ (hexField_length e) rfl, if_pos hraw]
  · rw [decodeReply_checked, checkReplyChecksum_fields _ _ _ (hexField_length e) rfl, if_neg hraw, if_pos hne]
    rfl

end Sys2Proof.Machine
end

section
/-! The codec operations (spec 40_codec.md R98 to R102): how an issue may leave FCV, once for every operation, and then
each operation by its operand. -/

namespace Sys2Proof.Machine

variable (s : State) (v : Byte)

/-! ### Ends of an issue -/

/-- Ending an issue with a number that fits NUM and a byte string that fits OUTBUF's length register: everything else
is as R44 leaves it. -/
theorem issued_putOut_endsAtIssue (st : SeqState) (r : ResultCode) (n : Nat) (out : List Byte) (hn : n < 65536)
    (hout : out.length < 256) :
    EndsAtIssue s (s.withFcv ((((s.fcv.issued v).setNum n).putOut out).finish st r)) v st r n out where
  issued :=
    { surroundings := ⟨rfl, rfl, rfl, rfl, rfl⟩
      operands := ⟨rfl, rfl, rfl, rfl, fun _ => rfl⟩
      cmd := rfl
      seqstate := rfl
      result := rfl
      bool := rfl
      num := Nat.mod_eq_of_lt hn
      outlen := Nat.mod_eq_of_lt hout
      outbuf := Fcv.putOut_holds ((s.fcv.issued v).setNum n) out
      outbufRest := Fcv.putOut_rest ((s.fcv.issued v).setNum n) out
      failcnt := rfl
      rxphase := rfl
      rxbuf := rfl }
  session := ⟨rfl, rfl, rfl, rfl⟩
  attempts := rfl
  noFailure := ⟨rfl, rfl, rfl⟩

/-- Ending an issue with a number and no output. -/
theorem issued_setNum_endsAtIssue (st : SeqState) (r : ResultCode) (n : Nat) (hn : n < 65536) :
    EndsAtIssue s (s.withFcv (((s.fcv.issued v).setNum n).finish st r)) v st r n [] :=
  issued_putOut_endsAtIssue s v st r n [] hn (by decide)

/-- Ending an issue with a decode failure on record: its number, and nothing in OUTBUF (R102). -/
theorem issued_storeFailure_issuedAs (c : ResultCode) (info : ErrInfo) :
    IssuedAs s (s.withFcv (((s.fcv.issued v).storeFailure c info).finish .failed c)) v .failed c info.num.toNat [] where
  surroundings := ⟨rfl, rfl, rfl, rfl, rfl⟩
  operands := ⟨rfl, rfl, rfl, rfl, fun _ => rfl⟩
  cmd := rfl
  seqstate := rfl
  result := rfl
  bool := rfl
  num := rfl
  outlen := rfl
  outbuf := fun _ hi => absurd hi (Nat.not_lt_zero _)
  outbufRest := fun _ _ => rfl
  failcnt := rfl
  rxphase := rfl
  rxbuf := rfl

/-- An operation issued while BUSY = 0 leaves FCV as its own part does (R71). -/
theorem exec_idle (i : Instr) (g : Fcv) (hb : s.fcv.busy = false)
    (hg : issueBody s.params i (s.fcv.issued (opcode i)) = .next g) : exec i s = .next (s.withFcv g) := by
  rw [exec_eq_issue, s.issue_idle _ _ hb, hg, State.lift_next]

/-! ### HEXIFY -/

/-- What `hexifyByte` answers is two digits (R86). -/
theorem hexifyByte_ok_length (n : Nat) (digits : List Byte) (h : hexifyByte n = .ok digits) : digits.length = 2 := by
  unfold hexifyByte at h
  split at h
  · cases h
  · rw [← CodecResult.ok.inj h, hexField_length]

theorem hexifyBody_ok (f : Fcv) (digits : List Byte) (h : hexifyByte f.hexifyOperand = .ok digits) :
    hexifyBody f = ((f.setNum f.hexifyOperand).putOut digits).finish .done .ok := by
  simp only [hexifyBody, h]

theorem hexifyBody_large (f : Fcv) (h : 255 < f.hexifyOperand) :
    hexifyBody f = (f.setNum f.hexifyOperand).finish .failed .rangeError := by
  simp only [hexifyBody, hexifyByte_large _ h, Fcv.raise]

/-- HEXIFY while BUSY = 0 (R98). -/
theorem exec_hexify (hb : s.fcv.busy = false) :
    exec .hexify s = .next (s.withFcv (hexifyBody (s.fcv.issued 0x02))) :=
  exec_idle s .hexify _ hb rfl

/-- Settles O14, by the answer of `hexifyByte`. -/
theorem hexifyResult : Obligations.HexifyResult := by
  intro s hb n
  have hn : n < 65536 := by
    have := s.fcv.arg0.isLt
    have := s.fcv.arg1.isLt
    omega
  refine ⟨fun digits hd => ?_, fun hlarge => ?_⟩
  · have hlen := hexifyByte_ok_length n digits hd
    refine ⟨_, exec_hexify s hb, ?_⟩
    rw [hexifyBody_ok (s.fcv.issued 0x02) digits hd]
    exact issued_putOut_endsAtIssue s 0x02 .done .ok n digits hn (by omega)
  · refine ⟨_, exec_hexify s hb, ?_⟩
    rw [hexifyBody_large (s.fcv.issued 0x02) hlarge]
    exact issued_setNum_endsAtIssue s 0x02 .failed .rangeError n hn

/-! ### Operands -/

/-- INLEN > 64 ends an operation that takes its operand from INBUF (R74), whatever the rest of it does. -/
theorem exec_long (i : Instr) (hb : s.fcv.busy = false) (hlen : 64 < s.fcv.inlen.toNat)
    (hi : i = .unhexify ∨ i = .checksum ∨ i = .encode ∨ i = .decode) :
    ∃ t, exec i s = .next t ∧ EndsAtIssue s t (opcode i) .failed .rangeError 0 [] := by
  refine ⟨_, exec_idle s i _ hb ?_, issued_finish_endsAtIssue s (opcode i) .failed .rangeError⟩
  rcases hi with rfl | rfl | rfl | rfl <;> exact (s.fcv.issued _).checkInlen_long _ hlen

/-- An invalid address ends ENCODE and DECODE before INBUF is read (R101, R102; log entry 4). -/
theorem exec_invalid (i : Instr) (hb : s.fcv.busy = false) (hlen : s.fcv.inlen.toNat ≤ 64)
    (ha : ¬ IsDeviceAddress s.params s.fcv.arg0) (hi : i = .encode ∨ i = .decode) :
    ∃ t, exec i s = .next t ∧ EndsAtIssue s t (opcode i) .failed .rangeError 0 [] := by
  refine ⟨_, exec_idle s i _ hb ?_, issued_finish_endsAtIssue s (opcode i) .failed .rangeError⟩
  rcases hi with rfl | rfl <;> exact Fcv.withAddressedOperand_invalid (s.fcv.issued _) _ _ hlen ha

/-- Settles O19. -/
theorem addressCheckPrecedesOperand : Obligations.AddressCheckPrecedesOperand :=
  fun s hb hlen ha =>
    ⟨exec_invalid s .encode hb hlen ha (.inl rfl), exec_invalid s .decode hb hlen ha (.inr rfl)⟩

/-! ### UNHEXIFY and CHECKSUM -/

/-- A number that two hex digits stand for fits NUM. -/
theorem unhexify_ok_lt (x : List Byte) (n : Nat) (h : unhexify x = .ok n) : n < 256 := by
  obtain ⟨c1, c0, d1, d0, -, h1, h0, rfl⟩ := (unhexify_eq_ok x n).mp h
  rw [hexval_eq_some, upperDigits_getElem?, lowerDigits_getElem?] at h1 h0
  omega

/-- UNHEXIFY with its operand in INBUF (R99). -/
theorem exec_unhexify (x : List Byte) (hb : s.fcv.busy = false) (hx : OperandIs s.fcv x) :
    exec .unhexify s = .next (s.withFcv (unhexifyBody (s.fcv.issued 0x03) x)) :=
  exec_idle s .unhexify _ hb (Fcv.withOperand_is (s.fcv.issued 0x03) _ x hx)

/-- CHECKSUM with its operand in INBUF (R100). -/
theorem exec_checksum (x : List Byte) (hb : s.fcv.busy = false) (hx : OperandIs s.fcv x) :
    exec .checksum s = .next (s.withFcv (checksumBody (s.fcv.issued 0x04) x)) :=
  exec_idle s .checksum _ hb (Fcv.withOperand_is (s.fcv.issued 0x04) _ x hx)

/-- Settles O15, by the answer of `unhexify`. -/
theorem unhexifyResult : Obligations.UnhexifyResult := by
  refine fun s hb => ⟨fun hlen => exec_long s .unhexify hb hlen (by decide),
    fun x hx => ⟨fun n hn => ?_, fun herr => ?_⟩⟩
  · have hlt := unhexify_ok_lt x n hn
    refine ⟨_, exec_unhexify s x hb hx, ?_⟩
    rw [unhexifyBody, hn]
    exact issued_setNum_endsAtIssue s 0x03 .done .ok n (by omega)
  · refine ⟨_, exec_unhexify s x hb hx, ?_⟩
    rw [unhexifyBody, herr]
    exact issued_finish_endsAtIssue s 0x03 .failed .formatError

theorem ckraw_lt (x : List Byte) : ckraw x < 65536 := Nat.lt_of_le_of_lt (ckraw_le x) (by decide)

/-- Settles O16, by whether the raw checksum is 256. -/
theorem checksumResult : Obligations.ChecksumResult := by
  refine fun s hb => ⟨fun hlen => exec_long s .checksum hb hlen (by decide),
    fun x hx => ⟨fun hraw => ?_, fun hraw => ?_⟩⟩
  · refine ⟨_, exec_checksum s x hb hx, ?_⟩
    rw [checksumBody, checksum_eq, if_pos hraw, hraw]
    exact issued_setNum_endsAtIssue s 0x04 .failed .rangeError 256 (by decide)
  · refine ⟨_, exec_checksum s x hb hx, ?_⟩
    rw [checksumBody, checksum_eq, if_neg hraw]
    exact issued_putOut_endsAtIssue s 0x04 .done .ok _ _ (ckraw_lt x) (by simp)

/-! ### ENCODE and DECODE -/

/-- ENCODE with a valid address and its payload in INBUF (R101). -/
theorem exec_encode (p : List Byte) (hb : s.fcv.busy = false) (hp : OperandIs s.fcv p)
    (ha : IsDeviceAddress s.params s.fcv.arg0) :
    exec .encode s = .next (s.withFcv (encodeBody (s.fcv.issued 0x05) p)) :=
  exec_idle s .encode _ hb (((s.fcv.issued 0x05).withAddressedOperand_valid _ _ ha).trans
    ((s.fcv.issued 0x05).withOperand_is _ p hp))

/-- DECODE with a valid address and its frame in INBUF (R102). -/
theorem exec_decode (f : List Byte) (hb : s.fcv.busy = false) (hf : OperandIs s.fcv f)
    (ha : IsDeviceAddress s.params s.fcv.arg0) :
    exec .decode s = .next (s.withFcv (decodeBody (s.fcv.issued 0x06) f)) :=
  exec_idle s .decode _ hb (((s.fcv.issued 0x06).withAddressedOperand_valid _ _ ha).trans
    ((s.fcv.issued 0x06).withOperand_is _ f hf))

theorem encodeBody_range (f : Fcv) (p : List Byte) (h : ckraw (hexField f.arg0 ++ p) = 256) :
    encodeBody f p = (f.setNum 256).finish .failed .rangeError := by
  simp only [encodeBody, encodeCommand_range _ _ h, h, Fcv.raise]

theorem encodeBody_ok (f : Fcv) (p : List Byte) (h : ckraw (hexField f.arg0 ++ p) ≠ 256) :
    encodeBody f p =
      ((f.setNum (ckraw (hexField f.arg0 ++ p))).putOut (commandLayout f.arg0 p)).finish .done .ok := by
  simp only [encodeBody, encodeCommand_ok _ _ h]

/-- Settles O17, by INLEN, the address, and whether the raw checksum is 256. -/
theorem encodeResult : Obligations.EncodeResult := by
  refine fun s hb => ⟨fun hlen => exec_long s .encode hb hlen (by decide), fun p hp =>
    ⟨fun ha => exec_invalid s .encode hb hp.1 ha (.inl rfl), fun ha hraw => ?_, fun ha hraw => ?_⟩⟩
  · refine ⟨_, exec_encode s p hb hp ha, ?_⟩
    rw [encodeBody_range (s.fcv.issued 0x05) p hraw]
    exact issued_setNum_endsAtIssue s 0x05 .failed .rangeError 256 (by decide)
  · refine ⟨_, exec_encode s p hb hp ha, ?_⟩
    rw [encodeBody_ok (s.fcv.issued 0x05) p hraw]
    obtain ⟨hinlen, hplen, -⟩ := hp
    exact issued_putOut_endsAtIssue s 0x05 .done .ok _ _ (ckraw_lt _) (by rw [commandLayout_length]; omega)

/-- The address field of a reply frame (R78, R79). -/
theorem slice_replyLayout (e : Byte) (p : List Byte) (cken : Bool) :
    slice (replyLayout e p cken) 1 3 = hexField e := by
  cases cken <;> rfl

/-- DECODE of a frame that decodes: the payload goes to OUTBUF, and NUM gets the raw checksum where CKEN = 1. -/
theorem decodeBody_ok (f : Fcv) (frame p : List Byte) (h : decodeReply frame f.arg0 f.ckenOperand = .ok p)
    (hnum : f.num = 0) :
    decodeBody f frame =
      ((f.setNum (if f.ckenOperand = true then ckraw (hexField f.arg0 ++ p) else 0)).putOut p).finish .done .ok := by
  obtain ⟨rfl, -⟩ := eq_replyLayout_of_decodeReply _ _ _ _ h
  simp only [decodeBody, h, Fcv.storeReply, slice_replyLayout]
  cases f.ckenOperand with
  | true => rfl
  | false =>
    have hf : f.setNum 0 = f := by rw [Fcv.setNum, show BitVec.ofNat 16 0 = f.num from hnum.symm]
    simp only [Bool.false_eq_true, if_false, hf]

theorem decodeBody_range (f : Fcv) (frame : List Byte) (info : ErrInfo)
    (h : decodeReply frame f.arg0 f.ckenOperand = .err .rangeError info) :
    decodeBody f frame = (f.setNum 256).finish .failed .rangeError := by
  rcases decodeReply_err _ _ _ _ _ h with ⟨-, rfl⟩ | hc
  · simp only [decodeBody, h, if_true]
    rfl
  · exact absurd hc (by decide)

theorem decodeBody_failed (f : Fcv) (frame : List Byte) (c : ResultCode) (info : ErrInfo) (hc : RetryEligible c)
    (h : decodeReply frame f.arg0 f.ckenOperand = .err c info) :
    decodeBody f frame = (f.storeFailure c info).finish .failed c := by
  have hne : c ≠ .rangeError := by rcases hc with rfl | rfl | rfl <;> decide
  simp only [decodeBody, h, if_neg hne]

/-- Settles O18, by INLEN, the address, and the answer of `decodeReply`. -/
theorem decodeResult : Obligations.DecodeResult := by
  refine fun s hb => ⟨fun hlen => exec_long s .decode hb hlen (by decide),
    fun f hf ha => exec_invalid s .decode hb hf.1 ha (.inr rfl), fun f hf ha =>
      ⟨fun p hp => ?_, fun info hinfo => ?_, fun c info hc hinfo => ?_⟩⟩
  all_goals refine ⟨_, exec_decode s f hb hf ha, ?_⟩
  · rw [decodeBody_ok (s.fcv.issued 0x06) f p hp rfl]
    have hshort := decodeReply_ok_length _ _ _ _ hp
    obtain ⟨hinlen, hflen, -⟩ := hf
    refine issued_putOut_endsAtIssue s 0x06 .done .ok _ p ?_ (by omega)
    split
    · exact ckraw_lt _
    · decide
  · rw [decodeBody_range (s.fcv.issued 0x06) f info hinfo]
    exact issued_setNum_endsAtIssue s 0x06 .failed .rangeError 256 (by decide)
  · rw [decodeBody_failed (s.fcv.issued 0x06) f c info hc hinfo]
    exact ⟨issued_storeFailure_issuedAs s 0x06 c info, ⟨rfl, rfl, rfl, rfl⟩, rfl, rfl, rfl, rfl⟩

end Sys2Proof.Machine
end

section
/-! The issue of CONFIGURE and of the session operations (spec 41_session.md section 1, R104 to R111): each ends in one
of the ways an issue may leave FCV, or goes on to SENDING or AWAITING_REPLY. -/

namespace Sys2Proof.Machine

variable (s : State)

/-! ### CONFIGURE -/

/-- BROADCAST_ADDR is the parameter's offset from 32 (R6). -/
theorem broadcastAddr_toNat (p : Params) : (broadcastAddr p).toNat = 32 + p.broadcastOffset.val := by
  have := p.broadcastOffset.isLt
  rw [broadcastAddr, BitVec.toNat_ofNat]
  omega

/-- Every value of 32..255 is BROADCAST_ADDR for some parameter (R6). -/
theorem exists_broadcastAddr (b : Byte) (h : 32 ≤ b.toNat) : ∃ p, broadcastAddr p = b := by
  have hlt : b.toNat - 32 < 224 := by omega
  refine ⟨⟨b.toNat - 32, hlt⟩, BitVec.eq_of_toNat_eq ?_⟩
  rw [broadcastAddr_toNat]
  simp only
  omega

/-- CONFIGURE with a valid address opens the session and ends as any issue with no output does (R105). -/
theorem configureBody_issuedAs :
    IssuedAs s (s.withFcv (configureBody (s.fcv.issued 0x01))) 0x01 .done .ok 0 [] :=
  { (issued_finish_endsAtIssue s 0x01 .done .ok).issued with
    surroundings := ⟨rfl, rfl, rfl, rfl, rfl⟩, operands := ⟨rfl, rfl, rfl, rfl, fun _ => rfl⟩ }

/-- Settles O13, by the check of the address. -/
theorem configureResult : Obligations.ConfigureResult := by
  refine ⟨⟨fun p => ?_, exists_broadcastAddr, rfl⟩, fun s hb => ⟨fun ha => ?_, fun ha => ?_⟩⟩
  · rw [broadcastAddr_toNat]
    omega
  · exact ⟨_, exec_idle s .configure _ hb (Fcv.withAddress_valid (s.fcv.issued 0x01) _ _ ha),
      configureBody_issuedAs s, rfl, ⟨rfl, rfl, rfl⟩, rfl, rfl, rfl, rfl⟩
  · exact ⟨_, exec_idle s .configure _ hb (Fcv.withAddress_invalid (s.fcv.issued 0x01) _ _ ha),
      issued_finish_endsAtIssue s 0x01 .failed .rangeError⟩

/-! ### The session check -/

theorem Fcv.withSession_open (f : Fcv) (k : Host.Outcome Fcv Fault Refusal) (h : f.sessionValid = true) :
    f.withSession k = k := by
  rw [Fcv.withSession, if_pos h]

theorem Fcv.withSession_closed (f : Fcv) (k : Host.Outcome Fcv Fault Refusal) (h : f.sessionValid = false) :
    f.withSession k = .next (f.finish .failed .noSession) := by
  rw [Fcv.withSession, if_neg (by simp [h]), Fcv.raise]

/-- Every session operation checks the session first (R104). -/
theorem issueBody_session (p : Params) (i : Instr) (hi : IsSessionOp i) (f : Fcv) :
    ∃ k, issueBody p i f = f.withSession k := by
  rcases hi with rfl | rfl | rfl | rfl | rfl <;> exact ⟨_, rfl⟩

/-- Settles O22: the session check comes first and decides. -/
theorem noSessionEndsAtIssue : Obligations.NoSessionEndsAtIssue := by
  intro i s hi hb hs
  obtain ⟨k, hk⟩ := issueBody_session s.params i hi (s.fcv.issued (opcode i))
  exact ⟨_, exec_idle s i _ hb (hk.trans (Fcv.withSession_closed (s.fcv.issued (opcode i)) k hs)),
    issued_finish_endsAtIssue s (opcode i) .failed .noSession⟩

/-! ### The operations that send -/

/-- FCV where an operation word `v` that sends has passed its checks, `n` being the frame's raw checksum (R107, R109,
R110). -/
def Fcv.requested (f : Fcv) (v : Byte) (n : Nat) : Fcv := ((f.issued v).setNum n).startSending

/-- An operation that sends, in a session, takes its operand as UNHEXIFY and CHECKSUM do (R104). -/
theorem issueBody_sending_open (p : Params) (i : Instr) (hi : IsSendingOp i) (f : Fcv) (hs : f.sessionValid = true) :
    issueBody p i f = f.withOperand fun x => .next (f.checkFrame Fcv.startSending x) := by
  rw [issueBody_sending f p i hi, Fcv.withCommandFrame, f.withSession_open _ hs]

theorem Fcv.checkFrame_ok (f : Fcv) (k : Fcv → Fcv) (p : List Byte) (h : ckraw (hexField f.saddr ++ p) ≠ 256) :
    f.checkFrame k p = k (f.setNum (ckraw (hexField f.saddr ++ p))) := by
  rw [Fcv.checkFrame_eq, if_neg h]

theorem Fcv.checkFrame_range (f : Fcv) (k : Fcv → Fcv) (p : List Byte) (h : ckraw (hexField f.saddr ++ p) = 256) :
    f.checkFrame k p = (f.setNum 256).finish .failed .rangeError := by
  rw [Fcv.checkFrame_eq, if_pos h, h, Fcv.raise]

/-- An operation that sends, issued in a session with a payload, checks that its frame encodes (R104). -/
theorem exec_checkFrame (i : Instr) (p : List Byte) (hi : IsSendingOp i) (hb : s.fcv.busy = false)
    (hs : s.fcv.sessionValid = true) (hp : OperandIs s.fcv p) :
    exec i s = .next (s.withFcv ((s.fcv.issued (opcode i)).checkFrame Fcv.startSending p)) := by
  refine exec_idle s i _ hb ?_
  rw [issueBody_sending_open _ i hi (s.fcv.issued (opcode i)) hs]
  exact Fcv.withOperand_is (s.fcv.issued (opcode i)) _ p hp

/-- Where the frame encodes it goes to SENDING (R104, R107). -/
theorem exec_requested (i : Instr) (p : List Byte) (hi : IsSendingOp i) (hb : s.fcv.busy = false)
    (hs : s.fcv.sessionValid = true) (hp : OperandIs s.fcv p) (hck : ckraw (hexField s.fcv.saddr ++ p) ≠ 256) :
    exec i s = .next (s.withFcv (s.fcv.requested (opcode i) (ckraw (hexField s.fcv.saddr ++ p)))) := by
  rw [exec_checkFrame s i p hi hb hs hp, Fcv.checkFrame_ok (s.fcv.issued (opcode i)) _ p hck]
  rfl

theorem requested_issuedAs (v : Byte) (n : Nat) (hn : n < 65536) :
    IssuedAs s (s.withFcv (s.fcv.requested v n)) v .sending .none n [] :=
  { (issued_setNum_endsAtIssue s v .sending .none n hn).issued with
    surroundings := ⟨rfl, rfl, rfl, rfl, rfl⟩, operands := ⟨rfl, rfl, rfl, rfl, fun _ => rfl⟩ }

/-- Settles O20, by INLEN and by whether the raw checksum of the frame is 256. -/
theorem sendingOperationsIssue : Obligations.SendingOperationsIssue := by
  refine fun i s hi hb hs => ⟨fun hlen => ?_, fun p hp => ⟨fun hck => ?_, fun hck => ?_⟩⟩
  · refine ⟨_, exec_idle s i _ hb ?_, issued_finish_endsAtIssue s (opcode i) .failed .rangeError⟩
    rw [issueBody_sending_open _ i hi (s.fcv.issued (opcode i)) hs]
    exact Fcv.withOperand_long (s.fcv.issued (opcode i)) _ hlen
  · refine ⟨_, exec_checkFrame s i p hi hb hs hp, ?_⟩
    rw [Fcv.checkFrame_range (s.fcv.issued (opcode i)) _ p hck]
    exact issued_setNum_endsAtIssue s (opcode i) .failed .rangeError 256 (by decide)
  · exact ⟨_, exec_requested s i p hi hb hs hp hck, requested_issuedAs s (opcode i) _ (ckraw_lt _),
      ⟨rfl, rfl, rfl, rfl⟩, ⟨rfl, rfl, rfl⟩, rfl⟩

/-! ### RECEIVE -/

/-- RECEIVE issued in a session goes to AWAITING_REPLY: after the clearing of R44 the hunt phase has begun (R108). -/
theorem exec_receive (hb : s.fcv.busy = false) (hs : s.fcv.sessionValid = true) :
    exec .receive s = .next (s.withFcv ((s.fcv.issued 0x08).finish .awaitingReply .none)) :=
  exec_idle s .receive _ hb (Fcv.withSession_open (s.fcv.issued 0x08) _ hs)

/-- Settles O21. -/
theorem receiveIssue : Obligations.ReceiveIssue :=
  fun s hb hs => ⟨_, exec_receive s hb hs, issued_finish_endsAtIssue s 0x08 .awaitingReply .none⟩

/-! ### Transitions at issue -/

/-- Where the issue of an operation leads SEQSTATE (R120). -/
theorem IssueEnd.seqstate {p : Params} {f g : Fcv} {i : Instr} (h : IssueEnd p f i g) :
    g.seqstate = .sending ∧ IsSendingOp i ∨ g.seqstate = .awaitingReply ∧ i = .receive ∨
      g.seqstate = .done ∧ ¬ IsSessionOp i ∨ g.seqstate = .failed := by
  cases h with
  | raised n c hc => exact .inr (.inr (.inr rfl))
  | codec hi hg =>
    obtain ⟨-, hi⟩ := hi
    cases hg with
    | raised n c hc => exact .inr (.inr (.inr rfl))
    | number n => exact .inr (.inr (.inl ⟨rfl, hi⟩))
    | output n r hr => exact .inr (.inr (.inl ⟨rfl, hi⟩))
    | undecoded c info hc => exact .inr (.inr (.inr rfl))
  | configured ha => exact .inr (.inr (.inl ⟨rfl, by decide⟩))
  | sending n hi hs hf => exact .inl ⟨rfl, hi⟩
  | receiving hs => exact .inr (.inl ⟨rfl, rfl⟩)

/-- Settles O47: the write is an operation's issue or an illegal word's. -/
theorem issueTransitions : Obligations.IssueTransitions := by
  intro s t rest v hstep
  obtain ⟨hb, ⟨-, hw⟩ | ⟨hl, -⟩⟩ := busWrite_next (s.withSchedule rest) t 0x00 v hstep
  · refine ⟨s.fcv.not_busy_iff.mp hb, ?_⟩
    rcases writeCmd_cases (s.withSchedule rest) v with ⟨i, rfl, he⟩ | ⟨-, he⟩ <;> rw [he] at hw
    · obtain ⟨g, hg, rfl⟩ := exec_next (s.withSchedule rest) t i hw
      rcases hg.seqstate with ⟨hs, hi⟩ | ⟨hs, rfl⟩ | ⟨hs, hi⟩ | hs
      · exact .inl ⟨hs, i, hi, rfl⟩
      · exact .inr (.inl ⟨hs, rfl⟩)
      · exact .inr (.inr (.inl ⟨hs, i, hi, rfl⟩))
      · exact .inr (.inr (.inr hs))
    · rw [execBadOpcode_next (s.withSchedule rest) t v hw]
      exact .inr (.inr (.inr rfl))
  · exact absurd rfl hl

end Sys2Proof.Machine
end

section
/-! The sequencer's steps, one state at a time (spec 41_session.md section 2, R113 to R120): what each does to FCV and to
the transport, by the transport's answer. -/

namespace Sys2Proof.Machine

variable (s t : State) (f : Fcv)

theorem seqStep_sending (h : s.fcv.seqstate = .sending) : seqStep s = seqSending s := by
  rw [seqStep, h]

theorem seqStep_awaiting (h : s.fcv.seqstate = .awaitingReply) : seqStep s = seqAwaiting s := by
  rw [seqStep, h]

theorem seqStep_decodingOk (h : s.fcv.seqstate = .decodingOk) : seqStep s = seqDecodingOk s := by
  rw [seqStep, h]

theorem seqStep_decodeFailed (h : s.fcv.seqstate = .decodeFailed) :
    seqStep s = .next (s.withFcv s.fcv.retryOrEnd) := by
  rw [seqStep, h, seqDecodeFailed]

/-! ### SENDING -/

/-- The command frame of an operand that encodes (R77, R92). -/
theorem Fcv.commandFrame_ok (p : List Byte) (hp : OperandIs f p) (hck : ckraw (hexField f.saddr ++ p) ≠ 256) :
    f.commandFrame = some (.ok (commandLayout f.saddr p)) := by
  rw [f.commandFrame_is p hp, encodeCommand_ok _ _ hck]

theorem Transport.outgoing_append {l m : Transport} (r : TxRecord) (h : m.sent = l.sent ++ [r]) :
    m.outgoing = l.outgoing ++ r.bytes := by
  simp [Transport.outgoing, h]

/-- Settles O27, by the transport's answer. -/
theorem sendingStep : Obligations.SendingStep := by
  intro s rest p hs hp hck
  obtain ⟨t, ht, honly, hsent, hrx, htx⟩ :=
    seqSending_eq (s.withSchedule rest) _ (s.fcv.commandFrame_ok p hp hck)
  have hstep : step (s.before .seq rest) = .next (t.withFcv (s.fcv.afterTx s.nextTx)) := by
    rw [step_before_seq, seqStep_sending (s.withSchedule rest) hs]
    exact ht
  refine ⟨_, hstep, honly.schedule, honly.reads, honly.params, hrx, htx, fun n hn => ⟨?_, ?_⟩, fun hok => ⟨?_, ?_⟩⟩
  · exact (Transport.outgoing_append _ hsent).trans (congrArg (fun a => _ ++ (txRecord _ a).bytes) hn)
  · rw [State.withFcv_fcv, hn]
    rfl
  · exact (Transport.outgoing_append _ hsent).trans (congrArg (fun a => _ ++ (txRecord _ a).bytes) hok)
  · rw [State.withFcv_fcv, hok]
    rfl

/-! ### AWAITING_REPLY -/

/-- The step in AWAITING_REPLY, whatever the transport answers (R114). -/
theorem step_awaiting (rest : List Event) (hs : s.fcv.seqstate = .awaitingReply) :
    ∃ t, step (s.before .seq rest) = .next t ∧ t.schedule = rest ∧ t.reads = s.reads ∧ t.params = s.params ∧
      t.line.sent = s.line.sent ∧ t.line.tx = s.line.tx ∧ t.line.rx = s.line.rx.tail ∧
      t.fcv = s.fcv.rxAnswer s.nextRx := by
  obtain ⟨t, ht, honly, hsent, htx, hrx⟩ := seqAwaiting_eq (s.withSchedule rest)
  refine ⟨t.withFcv (s.fcv.rxAnswer s.nextRx), ?_, honly.schedule, honly.reads, honly.params, hsent, htx, hrx, rfl⟩
  rw [step_before_seq, seqStep_awaiting (s.withSchedule rest) hs]
  exact ht

/-- An answer that is no byte leaves the incoming line as it was (R65). -/
theorem incoming_of_noByte (h : answerByte s.nextRx = none) (hrx : t.line.rx = s.line.rx.tail) :
    t.line.incoming = s.line.incoming := by
  unfold State.nextRx at h
  cases hl : s.line.rx with
  | nil => simp [Transport.incoming, hrx, hl]
  | cons a later =>
    have ha : answerByte a = none := by simpa [hl] using h
    simp [Transport.incoming, hrx, hl, ha]

/-- Settles O28. -/
theorem awaitingStopsOnTimeoutAndFault : Obligations.AwaitingStopsOnTimeoutAndFault := by
  intro s rest hs
  obtain ⟨t, ht, hsched, hreads, hparams, hsent, htx, hrx, hf⟩ := step_awaiting s rest hs
  refine ⟨fun hn => ?_, fun hn => ?_⟩ <;> rw [hn] at hf <;>
    exact ⟨t, ht, hsched, hreads, hparams, hsent, htx, hrx, incoming_of_noByte s t (by rw [hn]; rfl) hrx, hf⟩

theorem Fcv.rxAnswer_hunt (b : Byte) (h : f.rxphase = .hunt) : f.rxAnswer (.byte b) = f.huntByte b := by
  rw [Fcv.rxAnswer, Fcv.rxByte, h]

/-- Noise (R115). -/
theorem Fcv.rxAnswer_noise (b : Byte) (h : f.rxphase = .hunt) (hb : b ≠ 0x23) : f.rxAnswer (.byte b) = f := by
  rw [f.rxAnswer_hunt b h, Fcv.huntByte, if_neg hb]

theorem Fcv.rxAnswer_accum (b : Byte) (h : f.rxphase = .accum) : f.rxAnswer (.byte b) = f.accumByte b := by
  rw [Fcv.rxAnswer, Fcv.rxByte, h]

/-- Settles O29. -/
theorem huntDiscardsUpToHash : Obligations.HuntDiscardsUpToHash := by
  intro s rest b hs hp hn
  obtain ⟨t, ht, hsched, hreads, hparams, hsent, htx, hrx, hf⟩ := step_awaiting s rest hs
  rw [hn, s.fcv.rxAnswer_hunt b hp] at hf
  exact ⟨t, ht, hsched, hreads, hparams, hsent, htx, hrx, hf⟩

/-- A byte past the longest candidate (R116). -/
theorem Fcv.accumByte_overflow (b : Byte) (h : f.rxbuf.length = 128) :
    f.accumByte b = f.failAttempt .framingError noInfo := if_pos h

/-- The terminator (R116, R117). -/
theorem Fcv.accumByte_term (h : f.rxbuf.length ≠ 128) :
    f.accumByte 0x0D = Fcv.decodeCandidate { f with rxbuf := f.rxbuf ++ [0x0D] } := by
  rw [Fcv.accumByte, if_neg h, if_pos rfl]

/-- A byte of the candidate (R116). -/
theorem Fcv.accumByte_append (b : Byte) (h : f.rxbuf.length ≠ 128) (hb : b ≠ 0x0D) :
    f.accumByte b = { f with rxbuf := f.rxbuf ++ [b] } := by
  rw [Fcv.accumByte, if_neg h, if_neg hb]

/-- Settles O30. -/
theorem accumulateOrOverflow : Obligations.AccumulateOrOverflow := by
  intro s rest b hs hp hn hb
  obtain ⟨t, ht, hsched, hreads, hparams, hsent, htx, hrx, hf⟩ := step_awaiting s rest hs
  rw [hn, s.fcv.rxAnswer_accum b hp] at hf
  refine ⟨t, ht, hsched, hreads, hparams, hsent, htx, hrx, ?_⟩
  split
  case isTrue hfull => exact hf.trans (s.fcv.accumByte_overflow b hfull)
  case isFalse hfull => exact hf.trans (s.fcv.accumByte_append b hfull (hb.resolve_left hfull))

/-! ### The decode at the terminator -/

/-- FCV in DECODING_OK with the payload `p`: it is in OUTBUF, and NUM has the raw checksum where CKEN = 1 (R117). -/
def Fcv.decoded (f : Fcv) (p : List Byte) : Fcv :=
  { f.putOut p with
    num := if f.cken = true then BitVec.ofNat 16 (ckraw (hexField f.saddr ++ p)) else f.num
    seqstate := .decodingOk }

theorem Fcv.decodeCandidate_ok (p : List Byte) (h : decodeReply f.rxbuf f.saddr f.cken = .ok p) :
    f.decodeCandidate = f.decoded p := by
  have hframe := (eq_replyLayout_of_decodeReply _ _ _ _ h).1
  simp only [Fcv.decodeCandidate, h, Fcv.storeReply]
  rw [hframe, slice_replyLayout, Fcv.decoded]
  cases f.cken <;> rfl

theorem Fcv.decodeCandidate_range (info : ErrInfo) (h : decodeReply f.rxbuf f.saddr f.cken = .err .rangeError info) :
    f.decodeCandidate = { f with num := 256, seqstate := .failed, result := .rangeError } := by
  rcases decodeReply_err _ _ _ _ _ h with ⟨-, rfl⟩ | hc
  · simp only [Fcv.decodeCandidate, h, if_true]
    rfl
  · exact absurd hc (by decide)

theorem Fcv.decodeCandidate_failed (c : ResultCode) (info : ErrInfo) (hc : RetryEligible c)
    (h : decodeReply f.rxbuf f.saddr f.cken = .err c info) : f.decodeCandidate = f.failAttempt c info := by
  have hne : c ≠ .rangeError := by rcases hc with rfl | rfl | rfl <;> decide
  simp only [Fcv.decodeCandidate, h, if_neg hne]

/-- Settles O31, by the answer of `decodeReply`. -/
theorem decodeAtTerminator : Obligations.DecodeAtTerminator := by
  intro s rest hs hp hn hlen
  obtain ⟨t, ht, hsched, hreads, hparams, hsent, htx, hrx, hf⟩ := step_awaiting s rest hs
  rw [hn, s.fcv.rxAnswer_accum 0x0D hp, s.fcv.accumByte_term (by omega)] at hf
  refine ⟨t, ht, hsched, hreads, hparams, hsent, htx, hrx, fun p hd => ?_, fun info hd => ?_, fun c info hc hd => ?_⟩
  · rw [Fcv.decodeCandidate_ok _ p hd] at hf
    have hshort := decodeReply_ok_length _ _ _ _ hd
    rw [hf]
    exact ⟨rfl, by simp at hshort; omega, s.fcv.putOut_holds p, s.fcv.putOut_rest p⟩
  · exact hf.trans (Fcv.decodeCandidate_range _ info hd)
  · exact hf.trans (Fcv.decodeCandidate_failed _ c info hc hd)

/-! ### DECODING_OK and DECODE_FAILED -/

/-- FCV after the step in DECODING_OK, `p` being the payload in OUTBUF[0..OUTLEN) (R118). -/
def Fcv.posted (f : Fcv) (p : List Byte) : Fcv :=
  if f.cmd = opcode .command then f.interpret p else f.finish .done .ok

/-- The step in DECODING_OK with its payload in OUTBUF (R118). -/
theorem seqDecodingOk_eq (p : List Byte) (hlen : p.length = s.fcv.outlen.toNat) (hp : HoldsBytes s.fcv.outbuf p) :
    seqDecodingOk s = .next (s.withFcv (s.fcv.posted p)) := by
  rw [seqDecodingOk, Fcv.posted, (Memory.readRange_eq_some _ _ _).mpr ⟨hlen, hp⟩]
  split <;> rfl

/-- Settles O32. -/
theorem decodingOkStep : Obligations.DecodingOkStep := by
  intro s rest p hs hlen hp
  rw [step_before_seq, seqStep_decodingOk (s.withSchedule rest) hs]
  refine (seqDecodingOk_eq (s.withSchedule rest) p hlen hp).trans ?_
  rw [State.withSchedule_fcv, Fcv.posted, ite_not]
  rfl

/-- Settles O33. -/
theorem decodeFailedStep : Obligations.DecodeFailedStep :=
  fun s rest hs _ => seqStep_decodeFailed (s.withSchedule rest) hs

/-! ### Transitions of SEQSTATE -/

theorem Fcv.interpret_seqstate (p : List Byte) : (f.interpret p).seqstate = .done := by
  unfold Fcv.interpret
  split_ifs <;> rfl

theorem Fcv.retryOrEnd_seqstate :
    f.retryOrEnd.seqstate = .sending ∨ f.retryOrEnd.seqstate = .exhausted ∨ f.retryOrEnd.seqstate = .failed := by
  unfold Fcv.retryOrEnd
  split_ifs <;> simp

theorem Fcv.decodeCandidate_seqstate :
    f.decodeCandidate.seqstate = .decodingOk ∨ f.decodeCandidate.seqstate = .decodeFailed ∨
      f.decodeCandidate.seqstate = .failed := by
  rcases f.decodeCandidate_cases with ⟨p, -, he⟩ | ⟨-, he⟩ | ⟨c, info, -, -, he⟩ <;> rw [he] <;> simp [Fcv.raise]

/-- All the ways an answer to a read can leave FCV: it stays as it was in the hunt phase, starts or extends a candidate,
or leaves AWAITING_REPLY (R114 to R117). -/
theorem Fcv.rxAnswer_cases (a : RxAnswer) :
    (f.rxphase = .hunt ∧ f.rxAnswer a = f ∧ ∃ b, a = .byte b ∧ b ≠ 0x23) ∨
    (f.rxphase = .hunt ∧ f.rxAnswer a = { f with rxbuf := [0x23], rxphase := .accum }) ∨
    (f.rxphase = .accum ∧ f.rxbuf.length ≠ 128 ∧ ∃ b, f.rxAnswer a = { f with rxbuf := f.rxbuf ++ [b] }) ∨
    (f.rxAnswer a).seqstate = .decodingOk ∨ (f.rxAnswer a).seqstate = .decodeFailed ∨
      (f.rxAnswer a).seqstate = .failed := by
  cases a with
  | timeout => exact .inr (.inr (.inr (.inr (.inr rfl))))
  | transportFault => exact .inr (.inr (.inr (.inr (.inr rfl))))
  | byte b =>
    have hphase : f.rxphase = .hunt ∨ f.rxphase = .accum := by cases f.rxphase <;> simp
    rcases hphase with hp | hp
    · by_cases hb : b = 0x23
      · rw [f.rxAnswer_hunt b hp, Fcv.huntByte]
        exact .inr (.inl ⟨hp, if_pos hb⟩)
      · exact .inl ⟨hp, f.rxAnswer_noise b hp hb, b, rfl, hb⟩
    · rw [f.rxAnswer_accum b hp]
      by_cases hfull : f.rxbuf.length = 128
      · rw [f.accumByte_overflow b hfull]
        exact .inr (.inr (.inr (.inr (.inl rfl))))
      · by_cases hb : b = 0x0D
        · rw [hb, f.accumByte_term hfull]
          exact .inr (.inr (.inr (Fcv.decodeCandidate_seqstate _)))
        · exact .inr (.inr (.inl ⟨hp, hfull, b, f.accumByte_append b hfull hb⟩))

/-- Where an answer to a read leads SEQSTATE (R120). -/
theorem Fcv.rxAnswer_seqstate (a : RxAnswer) (hs : f.seqstate = .awaitingReply) :
    (f.rxAnswer a).seqstate = .awaitingReply ∨ (f.rxAnswer a).seqstate = .decodingOk ∨
      (f.rxAnswer a).seqstate = .decodeFailed ∨ (f.rxAnswer a).seqstate = .failed := by
  rcases f.rxAnswer_cases a with ⟨-, he, -⟩ | ⟨-, he⟩ | ⟨-, -, b, he⟩ | hout
  · exact .inl (by rw [he]; exact hs)
  · exact .inl (by rw [he]; exact hs)
  · exact .inl (by rw [he]; exact hs)
  · exact .inr hout

/-- Where the transport's answer to a frame write leads SEQSTATE (R113). -/
theorem Fcv.afterTx_seqstate (a : TxAnswer) :
    (f.afterTx a).seqstate = .awaitingReply ∧ f.cmd ≠ 0x07 ∨ (f.afterTx a).seqstate = .done ∧ f.cmd = 0x07 ∨
      (f.afterTx a).seqstate = .failed := by
  cases a with
  | transportFault n => exact .inr (.inr rfl)
  | ok =>
    rw [Fcv.afterTx, Fcv.afterSend]
    split
    case isTrue hc => exact .inr (.inl ⟨rfl, hc⟩)
    case isFalse hc => exact .inl ⟨rfl, hc⟩

/-- Where a sequencer step leads SEQSTATE (R120). -/
theorem seqStep_seqstate (h : seqStep s = .next t) :
    (s.fcv.seqstate = .sending ∧
      (t.fcv.seqstate = .awaitingReply ∧ s.fcv.cmd ≠ 0x07 ∨ t.fcv.seqstate = .done ∧ s.fcv.cmd = 0x07 ∨
        t.fcv.seqstate = .failed)) ∨
    (s.fcv.seqstate = .awaitingReply ∧
      (t.fcv.seqstate = .awaitingReply ∨ t.fcv.seqstate = .decodingOk ∨ t.fcv.seqstate = .decodeFailed ∨
        t.fcv.seqstate = .failed)) ∨
    (s.fcv.seqstate = .decodingOk ∧ t.fcv.seqstate = .done) ∨
    (s.fcv.seqstate = .decodeFailed ∧
      (t.fcv.seqstate = .sending ∨ t.fcv.seqstate = .exhausted ∨ t.fcv.seqstate = .failed)) ∨
    (s.fcv.busy = false ∧ t.fcv.seqstate = s.fcv.seqstate) := by
  rcases seqStep_cases s t h with ⟨hs, _, -, he, -⟩ | ⟨hs, he, -⟩ | ⟨hs, -, ⟨-, p, -, -, he⟩ | ⟨-, he⟩⟩ |
    ⟨hs, he, -⟩ | ⟨hb, rfl⟩
  · exact .inl ⟨hs, he ▸ s.fcv.afterTx_seqstate _⟩
  · exact .inr (.inl ⟨hs, he ▸ s.fcv.rxAnswer_seqstate _ hs⟩)
  · exact .inr (.inr (.inl ⟨hs, he ▸ s.fcv.interpret_seqstate p⟩))
  · exact .inr (.inr (.inl ⟨hs, he ▸ rfl⟩))
  · exact .inr (.inr (.inr (.inl ⟨hs, he ▸ s.fcv.retryOrEnd_seqstate⟩)))
  · exact .inr (.inr (.inr (.inr ⟨hb, rfl⟩)))

/-- Settles O46: one clause for each state the sequencer can be in. -/
theorem sequencerTransitions : Obligations.SequencerTransitions := by
  intro s t rest _ hstep
  have hcases := seqStep_seqstate (s.withSchedule rest) t hstep
  simp only [State.withSchedule_fcv] at hcases
  rcases hcases with ⟨hs, hout⟩ | ⟨hs, hout⟩ | ⟨hs, hout⟩ | ⟨hs, hout⟩ | ⟨hb, hout⟩
  · simpa [hs, Fcv.not_busy_iff] using hout
  · simpa [hs, Fcv.not_busy_iff] using hout
  · simpa [hs, Fcv.not_busy_iff] using hout
  · simpa [hs, Fcv.not_busy_iff] using hout
  · rcases s.fcv.not_busy_iff.mp hb with hs | hs | hs | hs <;> simp [hout, hs]

/-- Settles O48: no other step of the machine leads to IDLE. -/
theorem idleOnlyByReset : Obligations.IdleOnlyByReset := by
  intro s t hstep hidle
  obtain ⟨s0, hf, -, -, -, -, hcases⟩ := step_cases s t hstep
  rw [← hf]
  rcases hcases with ⟨t0, hseq, hft, -, -, -⟩ | ⟨a, hread, -⟩ | ⟨v, i, rest, -, -, -, hexec⟩ |
    ⟨v, rest, -, -, -, hbad⟩ | ⟨a, v, rest, -, -, -, rfl⟩ | ⟨n, rest, hs, -⟩
  · rw [hft] at hidle
    rcases seqStep_seqstate s0 t0 hseq with ⟨-, hout⟩ | ⟨-, hout⟩ | ⟨-, hout⟩ | ⟨-, hout⟩ | ⟨-, hout⟩
    · simp [hidle] at hout
    · simp [hidle] at hout
    · simp [hidle] at hout
    · simp [hidle] at hout
    · exact .inl (hout ▸ hidle)
  · obtain ⟨v, n, rfl⟩ := busRead_next s0 t a hread
    exact .inl hidle
  · obtain ⟨g, hg, rfl⟩ := exec_next s0 t i hexec
    rw [State.withFcv_fcv] at hidle
    rcases hg.seqstate with ⟨hs, -⟩ | ⟨hs, -⟩ | ⟨hs, -⟩ | hs <;> simp [hs] at hidle
  · rw [execBadOpcode_next s0 t v hbad] at hidle
    simp at hidle
  · left
    rcases s.fcv.storeByte_cases (locate a) v with he | ⟨-, he⟩ | ⟨-, he⟩ | ⟨-, he⟩ | ⟨-, he⟩ | ⟨i, -, he⟩ <;>
      rw [State.withFcv_fcv, he] at hidle <;> exact hf ▸ hidle
  · exact .inr ⟨n, rest, hs⟩

end Sys2Proof.Machine
end

section
/-! Runs of an operation (spec 41_session.md sections 1 and 2, R107 to R121): steps of the sequencer, composed. With
nothing scheduled a run is fixed by FCV and the transport's listed answers, so it is said of these two alone (`Leads`). -/

namespace Sys2Proof.Machine

variable {f g u : Fcv} {l m r : Transport} {n a b : Nat}

/-! ### Composing runs -/

/-- With nothing scheduled, `n` steps lead from FCV `f` and the transport `l` to `g` and `m`, whatever else the state
holds. -/
def Leads (n : Nat) (f : Fcv) (l : Transport) (g : Fcv) (m : Transport) : Prop :=
  ∀ s : State, s.schedule = [] → s.fcv = f → s.line = l →
    ∃ t, runSteps n s = .next t ∧ t.schedule = [] ∧ t.fcv = g ∧ t.line = m

theorem Leads.refl (f : Fcv) (l : Transport) : Leads 0 f l f l := fun s hs hf hl => ⟨s, rfl, hs, hf, hl⟩

theorem Leads.trans (h1 : Leads a f l g m) (h2 : Leads b g m u r) (hn : a + b = n) : Leads n f l u r := by
  intro s hs hf hl
  obtain ⟨t, ht, hts, htf, htl⟩ := h1 s hs hf hl
  obtain ⟨v, hv, hvs, hvf, hvl⟩ := h2 t hts htf htl
  exact ⟨v, by rw [← hn, runSteps_add s t a b ht, hv], hvs, hvf, hvl⟩

/-- With nothing scheduled, one step is the sequencer's. -/
theorem runSteps_one {s t : State} (hs : s.schedule = []) (ht : seqStep s = .next t) : runSteps 1 s = .next t := by
  rw [runSteps_succ s t 0 (by rw [step_nil s hs, ht]), runSteps_zero]

/-! ### One step -/

/-- The transport `l` with `rx` as the answers it will give to reads. -/
def Transport.hearing (l : Transport) (rx : List RxAnswer) : Transport := { l with rx := rx }

/-- One read in AWAITING_REPLY (R114). -/
theorem leads_read (l : Transport) (x : RxAnswer) (rx : List RxAnswer) (hs : f.seqstate = .awaitingReply) :
    Leads 1 f (l.hearing (x :: rx)) (f.rxAnswer x) (l.hearing rx) := by
  rintro s hsched rfl hl
  have hx : s.nextRx = x := by rw [State.nextRx, hl]; rfl
  obtain ⟨t, ht, honly, hsent, htx, hrx⟩ := seqAwaiting_eq s
  rw [hx] at ht
  rw [hl] at hsent htx hrx
  exact ⟨_, runSteps_one hsched ((seqStep_awaiting s hs).trans ht), honly.schedule.trans hsched, rfl,
    Transport.ext_fields hrx htx hsent⟩

/-- One frame write in SENDING, whatever the transport answers (R113). -/
theorem runSteps_send (s : State) (frame : List Byte) (hsched : s.schedule = []) (hs : s.fcv.seqstate = .sending)
    (hf : s.fcv.commandFrame = some (.ok frame)) :
    ∃ t, runSteps 1 s = .next t ∧ t.schedule = [] ∧ t.fcv = s.fcv.afterTx s.nextTx ∧
      t.line = s.line.afterWrite frame s.nextTx := by
  obtain ⟨t, ht, honly, hsent, hrx, htx⟩ := seqSending_eq s frame hf
  exact ⟨_, runSteps_one hsched ((seqStep_sending s hs).trans ht), honly.schedule.trans hsched, rfl,
    Transport.ext_fields hrx htx hsent⟩

/-- A frame write that the transport takes, by an operation other than SEND: the receive begins (R113). -/
theorem leads_send (frame : List Byte) (rx : List RxAnswer) (tx : List TxAnswer) (sent : List TxRecord)
    (hs : f.seqstate = .sending) (hc : f.cmd ≠ opcode .send) (hf : f.commandFrame = some (.ok frame)) :
    Leads 1 f ⟨rx, .ok :: tx, sent⟩ f.startReceive ⟨rx, tx, sent ++ [.whole frame]⟩ := by
  rintro s hsched rfl hl
  have hok : s.nextTx = .ok := by rw [State.nextTx, hl]
  obtain ⟨t, ht, hts, htf, htl⟩ := runSteps_send s frame hsched hs hf
  rw [hok] at htf htl
  exact ⟨t, ht, hts, by rw [htf, Fcv.afterTx, Fcv.afterSend, if_neg hc], by rw [htl, hl]; rfl⟩

/-- The step in DECODING_OK (R118). -/
theorem leads_posted (l : Transport) (q : List Byte) (hs : f.seqstate = .decodingOk)
    (hlen : q.length = f.outlen.toNat) (hq : HoldsBytes f.outbuf q) : Leads 1 f l (f.posted q) l := by
  rintro s hsched rfl rfl
  exact ⟨_, runSteps_one hsched ((seqStep_decodingOk s hs).trans (seqDecodingOk_eq s q hlen hq)), hsched, rfl, rfl⟩

/-- The step in DECODE_FAILED (R119). -/
theorem leads_retryOrEnd (l : Transport) (hs : f.seqstate = .decodeFailed) : Leads 1 f l f.retryOrEnd l := by
  rintro s hsched rfl rfl
  exact ⟨_, runSteps_one hsched (seqStep_decodeFailed s hs), hsched, rfl, rfl⟩

/-! ### Receiving a candidate frame -/

theorem answers_append (bs cs : List Byte) (rx : List RxAnswer) :
    answers (bs ++ cs) ++ rx = answers bs ++ (answers cs ++ rx) := by
  simp [answers]

/-- The hunt phase discards noise (R115). -/
theorem leads_noise (l : Transport) (noise : List Byte) (rx : List RxAnswer) (hs : f.seqstate = .awaitingReply)
    (hp : f.rxphase = .hunt) (hnoise : 0x23#8 ∉ noise) :
    Leads noise.length f (l.hearing (answers noise ++ rx)) f (l.hearing rx) := by
  induction noise with
  | nil => exact .refl _ _
  | cons c noise ih =>
    obtain ⟨hc, hrest⟩ := not_or.mp (mt List.mem_cons.mpr hnoise)
    have hread := leads_read l (.byte c) (answers noise ++ rx) hs
    rw [f.rxAnswer_noise c hp (Ne.symm hc)] at hread
    exact hread.trans (ih hrest) (by simp; omega)

/-- The accumulate phase takes the bytes of a candidate up to its terminator (R116). -/
theorem leads_body (l : Transport) (body : List Byte) (rx : List RxAnswer) (hs : f.seqstate = .awaitingReply)
    (hp : f.rxphase = .accum) (hlen : f.rxbuf.length + body.length ≤ 128) (hbody : 0x0D#8 ∉ body) :
    Leads body.length f (l.hearing (answers body ++ rx)) { f with rxbuf := f.rxbuf ++ body } (l.hearing rx) := by
  induction body generalizing f with
  | nil =>
    rw [List.append_nil]
    exact .refl _ _
  | cons c body ih =>
    obtain ⟨hc, hrest⟩ := not_or.mp (mt List.mem_cons.mpr hbody)
    rw [List.length_cons] at hlen
    have hread := leads_read l (.byte c) (answers body ++ rx) hs
    rw [f.rxAnswer_accum c hp, f.accumByte_append c (by omega) (Ne.symm hc)] at hread
    have htail := @ih { f with rxbuf := f.rxbuf ++ [c] } hs hp (by simp; omega) hrest
    rw [List.append_assoc, List.singleton_append] at htail
    exact hread.trans htail (by simp; omega)

/-- FCV with the candidate `c` in RXBUF. -/
def Fcv.holding (f : Fcv) (c : List Byte) : Fcv := { f with rxphase := .accum, rxbuf := c }

/-- A receive takes noise and then a candidate frame, and decodes it at its terminator (R115 to R117). -/
theorem leads_candidate (l : Transport) (noise c : List Byte) (rx : List RxAnswer) (hs : f.seqstate = .awaitingReply)
    (hp : f.rxphase = .hunt) (hnoise : 0x23#8 ∉ noise) (hc : CandidateFrame c) :
    Leads (noise.length + c.length) f (l.hearing (answers (noise ++ c) ++ rx)) (f.holding c).decodeCandidate
      (l.hearing rx) := by
  obtain ⟨hlen, body, hbody, rfl⟩ := hc
  rw [List.cons_append, List.length_cons, List.length_append, List.length_singleton] at hlen
  have hstart : Leads 1 f (l.hearing (answers (0x23#8 :: body ++ [0x0D#8]) ++ rx)) (f.holding [0x23])
      (l.hearing (answers (body ++ [0x0D#8]) ++ rx)) := by
    have := leads_read l (.byte 0x23) (answers (body ++ [0x0D#8]) ++ rx) hs
    rwa [f.rxAnswer_hunt _ hp] at this
  have hfill : Leads body.length (f.holding [0x23]) (l.hearing (answers (body ++ [0x0D#8]) ++ rx))
      (f.holding (0x23 :: body)) (l.hearing (.byte 0x0D :: rx)) := by
    rw [answers_append]
    exact leads_body (f := f.holding [0x23]) l body (.byte 0x0D :: rx) hs rfl
      (by simp [Fcv.holding]; omega) hbody
  have hterm : Leads 1 (f.holding (0x23 :: body)) (l.hearing (.byte 0x0D :: rx))
      (f.holding (0x23 :: body ++ [0x0D])).decodeCandidate (l.hearing rx) := by
    have := leads_read (f := f.holding (0x23 :: body)) l (.byte 0x0D) rx hs
    rwa [Fcv.rxAnswer_accum _ _ rfl, Fcv.accumByte_term _ (by simp [Fcv.holding]; omega)] at this
  rw [answers_append]
  exact (leads_noise l noise _ hs hp hnoise).trans
    ((hstart.trans hfill rfl).trans hterm rfl) (by simp; omega)

/-- A reply frame without CR in its payload is a candidate frame (R80). -/
theorem replyLayout_candidate (e : Byte) (q : List Byte) (cken : Bool) (hq : 0x0D#8 ∉ q)
    (hlen : (replyLayout e q cken).length ≤ 128) : CandidateFrame (replyLayout e q cken) := by
  refine ⟨hlen, _, ?_, replyLayout_eq e q cken⟩
  have hfield (x : Byte) := (hexField_no_mark x).1
  cases cken <;> simp [hfield, hq]

/-! ### A reply that decodes -/

/-- How an operation that `f` has in progress ends in `g` when a reply with the payload `q` arrives (R117, R118). -/
structure Delivered (f g : Fcv) (q : List Byte) : Prop where
  frame : SameFrame f g
  seqstate : g.seqstate = .done
  result : g.result = if f.cmd = opcode .command ∧ q ≠ okText ∧ q ≠ errText then .unexpectedReply else .ok
  bool : g.bool = true ↔ f.cmd = opcode .command ∧ q = okText
  attempts : g.attempts = f.attempts
  failcnt : g.failcnt = f.failcnt
  failure : NoFailure f → NoFailure g
  outlen : g.outlen.toNat = q.length
  outbuf : HoldsBytes g.outbuf q
  outbufRest : SameFrom q.length f.outbuf g.outbuf

/-- The step in DECODING_OK by what it posts (R111, R118). -/
theorem Fcv.posted_eq (f : Fcv) (q : List Byte) (hb : f.bool = false) :
    f.posted q =
      { f with
        seqstate := .done
        result := if f.cmd = opcode .command ∧ q ≠ okText ∧ q ≠ errText then .unexpectedReply else .ok
        bool := decide (f.cmd = opcode .command ∧ q = okText) } := by
  unfold Fcv.posted Fcv.interpret
  by_cases hc : f.cmd = opcode .command
  · by_cases hok : q = okText
    · simp [hc, hok, Fcv.finish]
    · by_cases herr : q = errText
      · simp [hc, herr, Fcv.finish, show errText ≠ okText by decide]
      · simp [hc, hok, herr, Fcv.finish, hb]
  · simp [hc, Fcv.finish, hb]

/-- A receive that takes noise and then a reply frame that decodes to `q` ends one step after the frame (R117, R118). -/
theorem leads_delivered (l : Transport) (noise c q : List Byte) (rx : List RxAnswer)
    (hs : f.seqstate = .awaitingReply) (hp : f.rxphase = .hunt) (hb : f.bool = false) (hnoise : 0x23#8 ∉ noise)
    (hc : CandidateFrame c) (hq : decodeReply c f.saddr f.cken = .ok q) :
    ∃ g, Delivered f g q ∧
      Leads (noise.length + c.length + 1) f (l.hearing (answers (noise ++ c) ++ rx)) g (l.hearing rx) := by
  have hshort := decodeReply_ok_length _ _ _ _ hq
  have hlen : (BitVec.ofNat 8 q.length).toNat = q.length := by
    have := hc.1
    rw [BitVec.toNat_ofNat]
    omega
  have hrun := leads_candidate l noise c rx hs hp hnoise hc
  rw [(f.holding c).decodeCandidate_ok q hq] at hrun
  refine ⟨_, ?_, hrun.trans (leads_posted _ q rfl hlen.symm ((f.holding c).putOut_holds q)) rfl⟩
  rw [Fcv.posted_eq ((f.holding c).decoded q) q hb]
  exact
    { frame := ⟨rfl, rfl⟩, seqstate := rfl, result := rfl, bool := decide_eq_true_iff
      attempts := rfl, failcnt := rfl, failure := fun ⟨he, ha, hl⟩ => ⟨he, ha, hl⟩, outlen := hlen
      outbuf := (f.holding c).putOut_holds q, outbufRest := (f.holding c).putOut_rest q }

end Sys2Proof.Machine
end

section
/-! The session operations from their issue to their end, with one request or none (spec 41_session.md R107 to R111, R121
item 3): each run is the issue, the frame write if there is one, and the receive. -/

namespace Sys2Proof.Machine

variable (s : State)

/-! ### The frame write -/

/-- A session's operation that sends has its frame in SENDING (R104). -/
theorem requested_commandFrame (f : Fcv) (v : Byte) (n : Nat) (p : List Byte) (hp : OperandIs f p)
    (hck : ckraw (hexField f.saddr ++ p) ≠ 256) :
    (f.requested v n).commandFrame = some (.ok (commandLayout f.saddr p)) := f.commandFrame_ok p hp hck

/-- The issue of an operation that sends, and its first frame write, whatever the transport answers (R104, R113). -/
theorem exec_then_send (i : Instr) (p : List Byte) (hi : IsSendingOp i) (hb : s.fcv.busy = false)
    (hs : s.fcv.sessionValid = true) (hsched : s.schedule = []) (hp : OperandIs s.fcv p)
    (hck : ckraw (hexField s.fcv.saddr ++ p) ≠ 256) :
    ∃ t0 t, exec i s = .next t0 ∧ runSteps 1 t0 = .next t ∧ t.schedule = [] ∧
      t.fcv = (s.fcv.requested (opcode i) (ckraw (hexField s.fcv.saddr ++ p))).afterTx s.nextTx ∧
      t.line = s.line.afterWrite (commandLayout s.fcv.saddr p) s.nextTx := by
  obtain ⟨t, ht⟩ := runSteps_send (s.withFcv (s.fcv.requested (opcode i) (ckraw (hexField s.fcv.saddr ++ p)))) _ hsched
    rfl (requested_commandFrame s.fcv _ _ p hp hck)
  exact ⟨_, t, exec_requested s i p hi hb hs hp hck, ht⟩

/-- A frame write answered Ok ends SEND (R113). -/
theorem Fcv.afterTx_send (f : Fcv) (hc : f.cmd = opcode .send) : f.afterTx .ok = f.finish .done .ok := by
  rw [Fcv.afterTx, Fcv.afterSend, if_pos hc]

/-- A frame write answered Ok begins the receive of every other operation that sends (R113). -/
theorem Fcv.afterTx_receive (f : Fcv) (hc : f.cmd ≠ opcode .send) : f.afterTx .ok = f.startReceive := by
  rw [Fcv.afterTx, Fcv.afterSend, if_neg hc]

/-- Settles O53, by the transport's answer to the one frame write. -/
theorem sendEndsAfterOneWrite : Obligations.SendEndsAfterOneWrite := by
  intro s p hb hs hsched hp hck
  obtain ⟨t0, t, ht0, ht, -, hf, hl⟩ := exec_then_send s .send p (.inl rfl) hb hs hsched hp hck
  have hsent := congrArg Transport.sent hl
  refine ⟨t0, t, ht0, ht, by rw [hl]; rfl, ?_⟩
  cases hn : s.nextTx with
  | ok =>
    rw [hn, Fcv.afterTx_send _ rfl] at hf
    rw [hf, Transport.outgoing_append _ hsent, hn]
    exact ⟨rfl, rfl, ⟨rfl, rfl, rfl, rfl⟩, ⟨rfl, rfl, rfl, rfl, fun _ => rfl⟩, fun _ => ⟨rfl, rfl, rfl⟩, nofun⟩
  | transportFault n =>
    rw [hn] at hf
    rw [hf, Transport.outgoing_append _ hsent, hn]
    exact ⟨rfl, rfl, ⟨rfl, rfl, rfl, rfl⟩, ⟨rfl, rfl, rfl, rfl, fun _ => rfl⟩, nofun,
      fun _ hm => ⟨rfl, rfl, by rw [TxAnswer.transportFault.inj hm]; rfl⟩⟩

/-- Settles O59. -/
theorem firstWriteFaultEndsWithoutRetry : Obligations.FirstWriteFaultEndsWithoutRetry := by
  intro i s p n hi hb hs hsched hp hck hn
  have hi' : IsSendingOp i := by rcases hi with rfl | rfl <;> decide
  obtain ⟨t0, t, ht0, ht, -, hf, hl⟩ := exec_then_send s i p hi' hb hs hsched hp hck
  rw [hn] at hf hl
  refine ⟨t0, t, ht0, ht, ?_⟩
  rw [hf, hl]
  exact ⟨rfl, rfl, rfl, rfl, rfl, rfl⟩

/-! ### A reply that decodes -/

/-- Settles O54: the issue begins the hunt, and the receive delivers the payload. -/
theorem receiveDeliversReply : Obligations.ReceiveDeliversReply := by
  intro s noise p later hb hs hsched hnoise hcr hlen hck hrx
  obtain ⟨g, hg, hrun⟩ := leads_delivered (f := (s.fcv.issued 0x08).finish .awaitingReply .none) s.line noise _ p later
    rfl rfl rfl hnoise (replyLayout_candidate _ _ _ hcr hlen) (decodeReply_replyLayout s.fcv.saddr p s.fcv.cken hck)
  rw [← hrx] at hrun
  obtain ⟨t, ht, -, rfl, hl⟩ := hrun (s.withFcv ((s.fcv.issued 0x08).finish .awaitingReply .none)) hsched rfl rfl
  refine ⟨_, t, exec_receive s hb hs, ht, hg.seqstate, ?_, hg.outlen, hg.outbuf, hg.attempts, hg.failcnt,
    hg.failure ⟨rfl, rfl, rfl⟩, by rw [hl]; rfl, by rw [hl]; rfl⟩
  have hreceive : (0x08 : Byte) ≠ opcode .command := by decide
  exact hg.result.trans (if_neg fun h => hreceive h.1)

/-- A run from the issue of an operation that sends, given what the run does to FCV and the transport. -/
theorem exec_leads (i : Instr) (p : List Byte) (hi : IsSendingOp i) (hb : s.fcv.busy = false)
    (hs : s.fcv.sessionValid = true) (hsched : s.schedule = []) (hp : OperandIs s.fcv p)
    (hck : ckraw (hexField s.fcv.saddr ++ p) ≠ 256) {n : Nat} {g : Fcv} {m : Transport}
    (hrun : Leads n (s.fcv.requested (opcode i) (ckraw (hexField s.fcv.saddr ++ p))) s.line g m) :
    ∃ t0 t, exec i s = .next t0 ∧ runSteps n t0 = .next t ∧ t.fcv = g ∧ t.line = m := by
  obtain ⟨t, ht, -, hf, hl⟩ := hrun (s.withFcv (s.fcv.requested _ _)) hsched rfl rfl
  exact ⟨_, t, exec_requested s i p hi hb hs hp hck, ht, hf, hl⟩

/-- One attempt of an operation whose reply decodes: the frame write, the receive, and the result posted (R113 to
R118). -/
theorem leads_delivered_attempt {f : Fcv} (frame noise c q : List Byte) (rx : List RxAnswer) (tx : List TxAnswer)
    (sent : List TxRecord) (hs : f.seqstate = .sending) (hcmd : f.cmd ≠ opcode .send) (hb : f.bool = false)
    (hf : f.commandFrame = some (.ok frame)) (hnoise : 0x23#8 ∉ noise) (hc : CandidateFrame c)
    (hq : decodeReply c f.saddr f.cken = .ok q) :
    ∃ g, Delivered f g q ∧
      Leads (noise.length + c.length + 2) f ⟨answers (noise ++ c) ++ rx, .ok :: tx, sent⟩ g
        ⟨rx, tx, sent ++ [.whole frame]⟩ := by
  obtain ⟨g, hg, hrun⟩ := leads_delivered (f := f.startReceive) ⟨rx, tx, sent ++ [.whole frame]⟩ noise c q rx rfl rfl hb
    hnoise hc hq
  exact ⟨g, { hg with failure := fun ⟨he, ha, hl⟩ => hg.failure ⟨he, ha, hl⟩ },
    (leads_send frame _ tx sent hs hcmd hf).trans hrun (by omega)⟩

/-- The session operations that send and then receive are not SEND. -/
theorem opcode_ne_send {i : Instr} (hi : i = .query ∨ i = .queryRetry ∨ i = .command) : opcode i ≠ opcode .send := by
  rcases hi with rfl | rfl | rfl <;> decide

theorem SameFrame.session {f g : Fcv} (h : SameFrame f g) : SameSession f g := sameSession_iff.mpr h.2

theorem SameFrame.operands {f g : Fcv} (h : SameFrame f g) : SameOperands f g := by
  obtain ⟨-, h0, h1, h2, hlen, hbuf⟩ := Fcv.inputs_eq.mp h.1
  exact ⟨h0, h1, h2, hlen, fun i => by rw [hbuf]⟩

/-- Settles O55: one attempt, whose reply decodes. -/
theorem firstReplyEndsRequest : Obligations.FirstReplyEndsRequest := by
  intro i s p q noise later laterTx hi hb hs hsched hp hck hnoise hcr hlen hckq hrx htx
  have hi' : IsSendingOp i := .inr hi
  obtain ⟨g, hg, hrun⟩ :=
    leads_delivered_attempt (f := s.fcv.requested (opcode i) (ckraw (hexField s.fcv.saddr ++ p))) _ noise _ q later
      laterTx s.line.sent rfl (opcode_ne_send hi) rfl (requested_commandFrame s.fcv _ _ p hp hck) hnoise
      (replyLayout_candidate _ _ _ hcr hlen) (decodeReply_replyLayout s.fcv.saddr q s.fcv.cken hckq)
  rw [← hrx, ← htx] at hrun
  obtain ⟨t0, t, ht0, ht, rfl, hl⟩ := exec_leads s i p hi' hb hs hsched hp hck hrun
  have hcommand : opcode i = opcode .command ↔ i = .command := opcode_inj i .command
  refine ⟨t0, t, ht0, ht, hg.seqstate, ?_, ?_, hg.attempts, hg.failcnt, hg.failure ⟨rfl, rfl, rfl⟩, hg.outlen, hg.outbuf,
    hg.outbufRest, { hg.frame.session with }, { hg.frame.operands with }, by rw [hl], by rw [hl], by rw [hl]⟩
  · rw [hg.result]
    exact if_congr (and_congr_left' hcommand) rfl rfl
  · exact hg.bool.trans (and_congr_left' hcommand)

end Sys2Proof.Machine
end

section
/-! Replies that fail to decode (spec 41_session.md R117, R119, R121): RECEIVE and QUERY end with the failure, QUERY_RETRY
and COMMAND send the same frame again until the bound of SMAXRETRY, by induction over the failing frames. -/

namespace Sys2Proof.Machine

variable {f g : Fcv}

/-! ### One failing reply -/

/-- FCV in DECODE_FAILED after the candidate `c` failed to decode with error `e` (R117). -/
def Fcv.undecoded (f : Fcv) (c : List Byte) (e : ResultCode) (info : ErrInfo) : Fcv :=
  (f.holding c).failAttempt e info

/-- A receive that takes noise and then a candidate frame that fails to decode (R117). -/
theorem leads_undecoded (l : Transport) (noise c : List Byte) (e : ResultCode) (info : ErrInfo) (rx : List RxAnswer)
    (hs : f.seqstate = .awaitingReply) (hp : f.rxphase = .hunt) (hnoise : 0x23#8 ∉ noise) (hc : CandidateFrame c)
    (he : RetryEligible e) (hd : decodeReply c f.saddr f.cken = .err e info) :
    Leads (noise.length + c.length) f (l.hearing (answers (noise ++ c) ++ rx)) (f.undecoded c e info)
      (l.hearing rx) := by
  have hrun := leads_candidate l noise c rx hs hp hnoise hc
  rwa [(f.holding c).decodeCandidate_failed e info he hd] at hrun

/-- RECEIVE and QUERY end with the failure (R119). -/
theorem Fcv.retryOrEnd_ends (f : Fcv) (hc : f.cmd = opcode .receive ∨ f.cmd = opcode .query) :
    f.retryOrEnd = f.finish .failed f.lastfail := if_pos hc

/-- The receive of RECEIVE or QUERY whose reply fails to decode, to its end (R117, R119). -/
theorem leads_failed (l : Transport) (noise c : List Byte) (e : ResultCode) (info : ErrInfo) (rx : List RxAnswer)
    (hcmd : f.cmd = opcode .receive ∨ f.cmd = opcode .query) (hs : f.seqstate = .awaitingReply)
    (hp : f.rxphase = .hunt) (hnoise : 0x23#8 ∉ noise) (hc : CandidateFrame c) (he : RetryEligible e)
    (hd : decodeReply c f.saddr f.cken = .err e info) :
    Leads (noise.length + c.length + 1) f (l.hearing (answers (noise ++ c) ++ rx))
      ((f.undecoded c e info).finish .failed e) (l.hearing rx) := by
  have hend := leads_retryOrEnd (f := f.undecoded c e info) (l.hearing rx) rfl
  rw [Fcv.retryOrEnd_ends (f.undecoded c e info) hcmd] at hend
  exact (leads_undecoded l noise c e info rx hs hp hnoise hc he hd).trans hend rfl

/-- Settles O56: RECEIVE hunts at once, QUERY after its frame write; the rest of the two runs is one. -/
theorem failingReplyEndsWithoutRetry : Obligations.FailingReplyEndsWithoutRetry := by
  intro i s p noise c e info later hi hb hs hsched hnoise hc he hd hrx
  rcases hi with rfl | ⟨rfl, hp, hck, hok⟩
  · have hrun := leads_failed (f := (s.fcv.issued 0x08).finish .awaitingReply .none) s.line noise c e info later
      (.inl rfl) rfl rfl hnoise hc he hd
    rw [← hrx] at hrun
    obtain ⟨t, ht, -, hf, hl⟩ := hrun (s.withFcv ((s.fcv.issued 0x08).finish .awaitingReply .none)) hsched rfl rfl
    refine ⟨_, t, exec_receive s hb hs, ht, ?_⟩
    rw [hf, hl]
    exact ⟨rfl, rfl, rfl, rfl, rfl, rfl, rfl, rfl, rfl, fun _ => rfl, ⟨rfl, rfl, rfl, rfl⟩,
      ⟨rfl, rfl, rfl, rfl, fun _ => rfl⟩, rfl, rfl, (List.append_nil _).symm⟩
  · obtain ⟨t0, u, ht0, hu, husched, huf, hul⟩ := exec_then_send s .query p (by decide) hb hs hsched hp hck
    rw [hok] at huf hul
    rw [Fcv.afterTx_receive _ (by decide : opcode .query ≠ opcode .send)] at huf
    have hrun := leads_failed (f := u.fcv) u.line noise c e info later (.inr (by rw [huf]; rfl)) (by rw [huf]; rfl)
      (by rw [huf]; rfl) hnoise hc he (by rw [huf]; exact hd)
    have hheard : u.line = u.line.hearing (answers (noise ++ c) ++ later) := by rw [hul, ← hrx]; rfl
    obtain ⟨t, ht, -, hf, hl⟩ := hrun u husched rfl hheard
    refine ⟨t0, t, ht0, ?_, ?_⟩
    · rw [if_neg (by decide), ← ht, ← runSteps_add t0 u 1 _ hu, Nat.add_comm 1]
    · rw [hf, hl, huf, hul]
      exact ⟨rfl, rfl, rfl, rfl, rfl, rfl, rfl, rfl, rfl, fun _ => rfl, ⟨rfl, rfl, rfl, rfl⟩,
        ⟨rfl, rfl, rfl, rfl, fun _ => rfl⟩, rfl, rfl, rfl⟩

/-! ### Retries -/

/-- `g` is FCV about to send the request that `f` began once more, after `k` failed attempts (R119, R121). -/
structure Retrying (f : Fcv) (k : Nat) (g : Fcv) : Prop where
  frame : SameFrame f g
  seqstate : g.seqstate = .sending
  attempts : g.attempts.toNat = k + 1
  failcnt : g.failcnt.toNat = k
  outlen : g.outlen = f.outlen
  bool : g.bool = f.bool

/-- The first attempt (R110, R111). -/
theorem Retrying.requested (f : Fcv) (v : Byte) (n : Nat) : Retrying (f.requested v n) 0 (f.requested v n) :=
  ⟨⟨rfl, rfl⟩, rfl, rfl, rfl, rfl, rfl⟩

/-- The operation that `f` has in progress retries: it is QUERY_RETRY or COMMAND (R119). -/
abbrev Retries (f : Fcv) : Prop := f.cmd = opcode .queryRetry ∨ f.cmd = opcode .command

theorem Retries.not_ends (h : Retries f) : ¬ (f.cmd = opcode .receive ∨ f.cmd = opcode .query) := by
  rcases h with h | h <;> simp [h]

theorem Retries.ne_send (h : Retries f) : f.cmd ≠ opcode .send := by
  rcases h with h | h <;> simp [h]

theorem SameFrame.cmd (h : SameFrame f g) : g.cmd = f.cmd := (Fcv.inputs_eq.mp h.1).1

theorem SameFrame.commandFrame (h : SameFrame f g) : g.commandFrame = f.commandFrame := by
  obtain ⟨-, -, -, -, hlen, hbuf⟩ := Fcv.inputs_eq.mp h.1
  rw [Fcv.commandFrame, Fcv.commandFrame, hlen, hbuf, h.session.saddr]

/-- One attempt of QUERY_RETRY or COMMAND whose reply fails to decode: the frame write and the receive (R113, R117). -/
theorem Retrying.leads_attempt {k : Nat} (h : Retrying f k g) (hr : Retries f) (frame c : List Byte) (e : ResultCode)
    (info : ErrInfo) (rx : List RxAnswer) (tx : List TxAnswer) (sent : List TxRecord)
    (hf : f.commandFrame = some (.ok frame)) (hc : CandidateFrame c) (he : RetryEligible e)
    (hd : decodeReply c f.saddr f.cken = .err e info) :
    Leads (c.length + 1) g ⟨answers c ++ rx, .ok :: tx, sent⟩ (g.startReceive.undecoded c e info)
      ⟨rx, tx, sent ++ [.whole frame]⟩ := by
  have hsend := leads_send (f := g) frame (answers c ++ rx) tx sent h.seqstate (by rw [h.frame.cmd]; exact hr.ne_send)
    (h.frame.commandFrame.trans hf)
  have hreceive := leads_undecoded (f := g.startReceive) ⟨rx, tx, sent ++ [.whole frame]⟩ [] c e info rx rfl rfl
    (by simp) hc he (by rw [← hd, ← h.frame.session.saddr, ← h.frame.session.cken]; rfl)
  exact hsend.trans hreceive (by simp; omega)

/-- While fewer attempts have failed than the bound allows, the request is sent again (R119). -/
theorem Retrying.again {k : Nat} (h : Retrying f k g) (hr : Retries f) (hk : k < f.smaxretry.toNat) (c : List Byte)
    (e : ResultCode) (info : ErrInfo) : Retrying f (k + 1) (g.startReceive.undecoded c e info).retryOrEnd := by
  have hbound := f.smaxretry.isLt
  have hattempts := h.attempts
  have hfailcnt := h.failcnt
  have hretry : (g.startReceive.undecoded c e info).retryOrEnd =
      { g.startReceive.undecoded c e info with attempts := g.attempts + 1, seqstate := .sending } := by
    rw [Fcv.retryOrEnd, if_neg, if_pos]
    · rfl
    · show g.attempts.toNat < g.smaxretry.toNat + 1
      rw [h.frame.session.smaxretry]
      omega
    · show ¬ (g.cmd = _ ∨ g.cmd = _)
      rw [h.frame.cmd]
      exact hr.not_ends
  rw [hretry]
  exact
    { frame := h.frame, seqstate := rfl, outlen := h.outlen, bool := h.bool
      attempts := by show (g.attempts + 1).toNat = k + 1 + 1; bv_omega
      failcnt := by show (g.failcnt + 1).toNat = k + 1; bv_omega }

/-- When the last attempt fails, the operation ends exhausted (R119, R121). -/
theorem Retrying.exhausted {k : Nat} (h : Retrying f k g) (hr : Retries f) (hk : k = f.smaxretry.toNat) (c : List Byte)
    (e : ResultCode) (info : ErrInfo) :
    (g.startReceive.undecoded c e info).retryOrEnd = (g.startReceive.undecoded c e info).finish .exhausted
      (if f.cmd = opcode .queryRetry then .nullResponse else .communicationError) := by
  rw [Fcv.retryOrEnd, if_neg, if_neg]
  · show (if g.cmd = opcode .queryRetry then _ else _) = _
    rw [h.frame.cmd]
    split <;> rfl
  · show ¬ g.attempts.toNat < g.smaxretry.toNat + 1
    rw [h.frame.session.smaxretry, h.attempts]
    omega
  · show ¬ (g.cmd = _ ∨ g.cmd = _)
    rw [h.frame.cmd]
    exact hr.not_ends

/-- Attempts that all fail, within the bound: each sends the frame once and takes two steps besides its reply's bytes. -/
theorem Retrying.leads_again (frames : List (List Byte)) (frame : List Byte) (rx : List RxAnswer)
    (tx : List TxAnswer) (sent : List TxRecord) {k : Nat} (h : Retrying f k g) (hr : Retries f)
    (hf : f.commandFrame = some (.ok frame)) (hk : k + frames.length ≤ f.smaxretry.toNat)
    (hfail : ∀ c ∈ frames, FailingFrame f c) :
    ∃ g', Retrying f (k + frames.length) g' ∧
      Leads (frames.flatten.length + 2 * frames.length) g
        ⟨answers frames.flatten ++ rx, List.replicate frames.length .ok ++ tx, sent⟩ g'
        ⟨rx, tx, sent ++ List.replicate frames.length (.whole frame)⟩ := by
  induction frames generalizing g k sent with
  | nil => exact ⟨g, h, by simpa [answers] using Leads.refl g ⟨rx, tx, sent⟩⟩
  | cons c frames ih =>
    rw [List.length_cons] at hk
    obtain ⟨⟨hc, e, info, he, hd⟩, hrest⟩ := List.forall_mem_cons.mp hfail
    have hattempt := h.leads_attempt hr frame c e info (answers frames.flatten ++ rx)
      (List.replicate frames.length .ok ++ tx) sent hf hc he hd
    obtain ⟨g', hg', hrun⟩ := ih (sent ++ [.whole frame]) (h.again hr (by omega) c e info) (by omega) hrest
    refine ⟨g', by rw [List.length_cons, show k + (frames.length + 1) = k + 1 + frames.length by omega]; exact hg', ?_⟩
    rw [List.append_assoc, List.singleton_append] at hrun
    rw [List.flatten_cons, answers_append, List.length_cons, List.replicate_succ, List.replicate_succ]
    exact (hattempt.trans (leads_retryOrEnd _ rfl) rfl).trans hrun (by simp; omega)

theorem replicate_succ_append {α : Type} (n : Nat) (x : α) (xs : List α) :
    List.replicate (n + 1) x ++ xs = List.replicate n x ++ x :: xs := by
  rw [List.replicate_succ', List.append_assoc, List.singleton_append]

/-- Every attempt within the bound fails: the last one, after all others led to one more, ends the operation. -/
theorem leads_exhausted (frames : List (List Byte)) (frame : List Byte) (rx : List RxAnswer) (tx : List TxAnswer)
    (sent : List TxRecord) (h : Retrying f 0 f) (hr : Retries f) (hf : f.commandFrame = some (.ok frame))
    (hlen : frames.length = f.smaxretry.toNat + 1) (hfail : ∀ c ∈ frames, FailingFrame f c) :
    ∃ g, g.seqstate = .exhausted ∧
      g.result = (if f.cmd = opcode .queryRetry then .nullResponse else .communicationError) ∧
      g.attempts.toNat = f.smaxretry.toNat + 1 ∧ g.failcnt.toNat = f.smaxretry.toNat + 1 ∧ g.outlen = f.outlen ∧
      Leads (frames.flatten.length + 2 * frames.length) f
        ⟨answers frames.flatten ++ rx, List.replicate frames.length .ok ++ tx, sent⟩ g
        ⟨rx, tx, sent ++ List.replicate frames.length (.whole frame)⟩ := by
  obtain ⟨frames, c, rfl⟩ : ∃ init last, frames = init ++ [last] :=
    ⟨_, _, (List.dropLast_append_getLast (List.ne_nil_of_length_eq_add_one hlen)).symm⟩
  have hlen' : frames.length = f.smaxretry.toNat := by simpa using hlen
  obtain ⟨hfail, hlast⟩ := List.forall_mem_append.mp hfail
  obtain ⟨hc, e, info, he, hd⟩ := hlast c (List.mem_singleton_self c)
  obtain ⟨g, hg, hrun⟩ := h.leads_again frames frame (answers c ++ rx) (.ok :: tx) sent hr hf (by omega) hfail
  rw [Nat.zero_add, hlen'] at hg
  have hattempt := hg.leads_attempt hr frame c e info rx tx
    (sent ++ List.replicate frames.length (.whole frame)) hf hc he hd
  have hend := leads_retryOrEnd (f := g.startReceive.undecoded c e info)
    ⟨rx, tx, sent ++ List.replicate frames.length (.whole frame) ++ [.whole frame]⟩ rfl
  rw [hg.exhausted hr rfl c e info] at hend
  refine ⟨(g.startReceive.undecoded c e info).finish .exhausted
    (if f.cmd = opcode .queryRetry then .nullResponse else .communicationError), rfl, rfl, hg.attempts, ?_, hg.outlen, ?_⟩
  · have hfailcnt := hg.failcnt
    have hbound := f.smaxretry.isLt
    show (g.failcnt + 1).toNat = _
    bv_omega
  · have hcount : (frames ++ [c]).length = frames.length + 1 := by simp
    rw [hcount, List.flatten_append, List.flatten_singleton, answers_append, replicate_succ_append,
      List.replicate_succ', ← List.append_assoc sent]
    exact (hrun.trans hattempt rfl).trans hend (by simp; omega)

/-- QUERY_RETRY and COMMAND set out with a request that retries (R110, R111). -/
theorem requested_retries {i : Instr} (hi : i = .queryRetry ∨ i = .command) (f : Fcv) (n : Nat) :
    Retries (f.requested (opcode i) n) := by
  rcases hi with rfl | rfl
  · exact .inl rfl
  · exact .inr rfl

/-- Settles O57. -/
theorem retriesExhaustExactly : Obligations.RetriesExhaustExactly := by
  intro i s p frames later laterTx hi hb hs hsched hp hck hlen hfail hrx htx
  obtain ⟨g, hst, hres, hatt, hcnt, hout, hrun⟩ := leads_exhausted frames _ later laterTx s.line.sent
    (Retrying.requested s.fcv (opcode i) (ckraw (hexField s.fcv.saddr ++ p))) (requested_retries hi _ _)
    (requested_commandFrame s.fcv _ _ p hp hck) hlen hfail
  rw [← hrx, ← htx] at hrun
  obtain ⟨t0, t, ht0, ht, rfl, hl⟩ := exec_leads s i p (.inr (.inr hi)) hb hs hsched hp hck hrun
  refine ⟨t0, t, ht0, ht, hst, hres.trans ?_, hatt, hcnt, hout, by rw [hl], by rw [hl]⟩
  exact if_congr (opcode_inj i .queryRetry) rfl rfl

/-- Failing attempts within the bound and then one whose reply decodes (R117 to R119). -/
theorem leads_recovered (frames : List (List Byte)) (frame c q : List Byte) (rx : List RxAnswer) (tx : List TxAnswer)
    (sent : List TxRecord) (h : Retrying f 0 f) (hr : Retries f) (hb : f.bool = false)
    (hf : f.commandFrame = some (.ok frame)) (hlen : frames.length ≤ f.smaxretry.toNat)
    (hfail : ∀ c ∈ frames, FailingFrame f c) (hc : CandidateFrame c) (hq : decodeReply c f.saddr f.cken = .ok q) :
    ∃ g k, Retrying f frames.length k ∧ Delivered k g q ∧
      Leads (frames.flatten.length + 2 * frames.length + (c.length + 2)) f
        ⟨answers (frames.flatten ++ c) ++ rx, List.replicate (frames.length + 1) .ok ++ tx, sent⟩ g
        ⟨rx, tx, sent ++ List.replicate (frames.length + 1) (.whole frame)⟩ := by
  obtain ⟨k, hk, hrun⟩ := h.leads_again frames frame (answers c ++ rx) (.ok :: tx) sent hr hf (by omega) hfail
  rw [Nat.zero_add] at hk
  obtain ⟨g, hg, hlast⟩ := leads_delivered_attempt (f := k) frame [] c q rx tx
    (sent ++ List.replicate frames.length (.whole frame)) hk.seqstate (by rw [hk.frame.cmd]; exact hr.ne_send)
    (hk.bool.trans hb) (hk.frame.commandFrame.trans hf) (by simp) hc
    (by rw [hk.frame.session.saddr, hk.frame.session.cken]; exact hq)
  refine ⟨g, k, hk, hg, ?_⟩
  rw [answers_append, replicate_succ_append, List.replicate_succ', ← List.append_assoc sent]
  exact hrun.trans hlast (by simp)

/-- Settles O58. -/
theorem retriesRecover : Obligations.RetriesRecover := by
  intro i s p q frames later laterTx hi hb hs hsched hp hck hlen hfail hcr hlenq hckq hrx htx
  obtain ⟨g, k, hk, hg, hrun⟩ := leads_recovered frames _ _ q later laterTx s.line.sent
    (Retrying.requested s.fcv (opcode i) (ckraw (hexField s.fcv.saddr ++ p))) (requested_retries hi _ _) rfl
    (requested_commandFrame s.fcv _ _ p hp hck) hlen hfail (replyLayout_candidate _ _ _ hcr hlenq)
    (decodeReply_replyLayout s.fcv.saddr q s.fcv.cken hckq)
  rw [← hrx, ← htx] at hrun
  obtain ⟨t0, t, ht0, ht, rfl, hl⟩ := exec_leads s i p (.inr (.inr hi)) hb hs hsched hp hck hrun
  have hcommand : k.cmd = opcode .command ↔ i = .command := by
    rw [hk.frame.cmd]
    exact opcode_inj i .command
  refine ⟨t0, t, _, ht0, ht, hg.seqstate, ?_, ?_, ?_, ?_, hg.outlen, hg.outbuf, by rw [hl], by rw [hl]⟩
  · exact hg.result.trans (if_congr (and_congr_left' hcommand) rfl rfl)
  · exact hg.bool.trans (and_congr_left' hcommand)
  · rw [hg.failcnt, hk.failcnt]
  · rw [hg.attempts, hk.attempts]

end Sys2Proof.Machine
end

section
/-! Every operation ends on a fair transport (spec 41_session.md R122, 70_reset_and_hazards.md R153). Two measures of FCV
drive the proofs: `owed` counts the steps that come before the next read, which bounds the steps of a run by its reads;
`rank` falls with every step but the discarding of noise, which fairness ends. -/

namespace Sys2Proof.Machine

variable {p : Params} {f g : Fcv} {s t : State}

/-! ### Steps and the answers to come -/

@[simp] theorem State.hearing_fcv (s : State) (rx : List RxAnswer) : (s.hearing rx).fcv = s.fcv := rfl

theorem State.txWrite_hearing (s : State) (rx : List RxAnswer) (frame : List Byte) :
    (s.hearing rx).txWrite frame = ((s.txWrite frame).1, (s.txWrite frame).2.hearing rx) := by
  have htx : (s.hearing rx).line.tx = s.line.tx := rfl
  rw [State.txWrite, State.txWrite, htx]
  cases s.line.tx <;> rfl

theorem seqSending_hearing (rx : List RxAnswer) (h : seqSending s = .next t) :
    seqSending (s.hearing rx) = .next (t.hearing rx) := by
  obtain ⟨frame, hf⟩ := seqSending_next s t h
  cases hw : s.txWrite frame with
  | mk a u =>
    simp only [seqSending, State.hearing_fcv, State.txWrite_hearing, hf, hw] at h ⊢
    cases a <;> cases h <;> rfl

theorem seqDecodingOk_hearing (rx : List RxAnswer) (h : seqDecodingOk s = .next t) :
    seqDecodingOk (s.hearing rx) = .next (t.hearing rx) := by
  rcases seqDecodingOk_next s t h with ⟨hc, p, hlen, hp, rfl⟩ | ⟨hc, rfl⟩
  · have hcmd : (s.hearing rx).fcv.cmd = opcode .command := hc
    rw [seqDecodingOk_eq (s.hearing rx) p hlen hp, Fcv.posted, if_pos hcmd]
    rfl
  · have hcmd : (s.hearing rx).fcv.cmd ≠ opcode .command := hc
    rw [seqDecodingOk, if_neg hcmd]
    rfl

/-- The answers to come do not enter a step that reads none. -/
theorem seqStep_hearing (rx : List RxAnswer) (hs : s.fcv.seqstate ≠ .awaitingReply) (h : seqStep s = .next t) :
    seqStep (s.hearing rx) = .next (t.hearing rx) := by
  unfold seqStep at h ⊢
  rw [State.hearing_fcv]
  split at h
  case h_1 => exact seqSending_hearing rx h
  case h_2 hawait => exact absurd hawait hs
  case h_3 => exact seqDecodingOk_hearing rx h
  all_goals
    cases h
    rfl

/-- A read takes the first of the answers to come. -/
theorem seqStep_hearing_cons (a : RxAnswer) (rx : List RxAnswer) (hs : s.fcv.seqstate = .awaitingReply) :
    seqStep (s.hearing (a :: rx)) = .next ((s.withFcv (s.fcv.rxAnswer a)).hearing rx) :=
  seqStep_awaiting (s.hearing (a :: rx)) hs

/-! ### The measures -/

/-- The steps that come before the next read, or before the end, wherever the operation is. -/
def Fcv.owed (f : Fcv) : Nat :=
  match f.seqstate with
  | .decodeFailed => 2
  | .sending => 1
  | .decodingOk => 1
  | .idle | .awaitingReply | .done | .exhausted | .failed => 0

/-- The attempts that SMAXRETRY still allows (R119). -/
def Fcv.attemptsLeft (f : Fcv) : Nat := f.smaxretry.toNat + 1 - f.attempts.toNat

/-- How far an attempt still has to go: the write, the hunt, and the bytes that RXBUF has room for. -/
def Fcv.stage (f : Fcv) : Nat :=
  match f.seqstate, f.rxphase with
  | .sending, _ => 131
  | .awaitingReply, .hunt => 130
  | .awaitingReply, .accum => 129 - f.rxbuf.length
  | .idle, _ | .decodingOk, _ | .decodeFailed, _ | .done, _ | .exhausted, _ | .failed, _ => 0

/-- Attempts first, then the stage of the current one. -/
def Fcv.rank (f : Fcv) : Nat := 132 * f.attemptsLeft + f.stage

theorem Fcv.owed_le (f : Fcv) : f.owed ≤ 2 := by
  unfold Fcv.owed
  split <;> decide

/-- A frame write ends the operation or begins the hunt (R113). -/
theorem Fcv.afterTx_progress (f : Fcv) (a : TxAnswer) (hs : f.seqstate = .sending) :
    (f.afterTx a).owed < f.owed ∧ ((f.afterTx a).busy = false ∨ (f.afterTx a).rank < f.rank) := by
  have howed : f.owed = 1 := by rw [Fcv.owed, hs]
  have hstage : f.stage = 131 := by rw [Fcv.stage, hs]
  rw [howed]
  cases a with
  | transportFault n => exact ⟨Nat.zero_lt_one, .inl rfl⟩
  | ok =>
    rw [Fcv.afterTx, Fcv.afterSend]
    split
    · exact ⟨Nat.zero_lt_one, .inl rfl⟩
    · have hrank : f.startReceive.rank = 132 * f.attemptsLeft + 130 := rfl
      exact ⟨Nat.zero_lt_one, .inr (by rw [hrank, Fcv.rank]; omega)⟩

/-- A failed attempt ends the operation or leaves it one attempt less (R119). -/
theorem Fcv.retryOrEnd_progress (f : Fcv) (hs : f.seqstate = .decodeFailed) :
    f.retryOrEnd.owed < f.owed ∧ (f.retryOrEnd.busy = false ∨ f.retryOrEnd.rank < f.rank) := by
  have howed : f.owed = 2 := by rw [Fcv.owed, hs]
  rw [howed]
  unfold Fcv.retryOrEnd
  split_ifs with hends hleft
  · exact ⟨Nat.zero_lt_two, .inl rfl⟩
  · have hnext : (f.attempts + 1).toNat = f.attempts.toNat + 1 := by
      have := f.smaxretry.isLt
      bv_omega
    refine ⟨Nat.one_lt_two, .inr ?_⟩
    show 132 * (f.smaxretry.toNat + 1 - (f.attempts + 1).toNat) + 131 <
      132 * (f.smaxretry.toNat + 1 - f.attempts.toNat) + f.stage
    omega
  · exact ⟨Nat.zero_lt_two, .inl rfl⟩
  · exact ⟨Nat.zero_lt_two, .inl rfl⟩

theorem Fcv.done_idle (hs : f.seqstate = .done) : f.owed = 0 ∧ f.busy = false :=
  ⟨by rw [Fcv.owed, hs], f.not_busy_iff.mpr (.inr (.inl hs))⟩

/-- A step without a read brings the operation nearer to its next read or its end (R113, R118, R119). -/
theorem seqStep_progress (hs : s.fcv.seqstate ≠ .awaitingReply) (hb : s.fcv.busy = true) (h : seqStep s = .next t) :
    t.fcv.owed < s.fcv.owed ∧ (t.fcv.busy = false ∨ t.fcv.rank < s.fcv.rank) := by
  have hdone (hd : t.fcv.seqstate = .done) (hst : s.fcv.seqstate = .decodingOk) :
      t.fcv.owed < s.fcv.owed ∧ (t.fcv.busy = false ∨ t.fcv.rank < s.fcv.rank) := by
    obtain ⟨howed, hidle⟩ := Fcv.done_idle hd
    exact ⟨by rw [howed, Fcv.owed, hst]; exact Nat.zero_lt_one, .inl hidle⟩
  rcases seqStep_cases s t h with ⟨hst, _, -, he, -⟩ | ⟨hst, -⟩ | ⟨hst, -, ⟨-, p, -, -, he⟩ | ⟨-, he⟩⟩ |
    ⟨hst, he, -⟩ | ⟨hidle, -⟩
  · exact he ▸ s.fcv.afterTx_progress _ hst
  · exact absurd hst hs
  · exact hdone (he ▸ s.fcv.interpret_seqstate p) hst
  · exact hdone (he ▸ rfl) hst
  · exact he ▸ s.fcv.retryOrEnd_progress hst
  · rw [hidle] at hb
    cases hb

theorem Fcv.decodeCandidate_attempts (f : Fcv) : f.decodeCandidate.attempts = f.attempts := by
  rcases f.decodeCandidate_cases with ⟨p, -, he⟩ | ⟨-, he⟩ | ⟨c, info, -, -, he⟩ <;> rw [he]
  · obtain ⟨n, hn⟩ := f.storeReply_eq f.rxbuf p f.cken
    rw [hn]
    rfl
  · rfl
  · rfl

/-- A read makes no attempt (R38). -/
theorem Fcv.rxAnswer_attempts (f : Fcv) (a : RxAnswer) : (f.rxAnswer a).attempts = f.attempts := by
  cases a with
  | timeout => rfl
  | transportFault => rfl
  | byte b =>
    simp only [Fcv.rxAnswer, Fcv.rxByte]
    split
    · unfold Fcv.huntByte
      split <;> rfl
    · unfold Fcv.accumByte
      split_ifs
      · rfl
      · exact Fcv.decodeCandidate_attempts _
      · rfl

theorem Fcv.rxAnswer_attemptsLeft (f : Fcv) (a : RxAnswer) : (f.rxAnswer a).attemptsLeft = f.attemptsLeft := by
  rw [Fcv.attemptsLeft, Fcv.attemptsLeft, f.rxAnswer_attempts a, (f.rxAnswer_frame a).session.smaxretry]

theorem Fcv.stage_hunt (hs : f.seqstate = .awaitingReply) (hp : f.rxphase = .hunt) : f.stage = 130 := by
  rw [Fcv.stage, hs, hp]

theorem Fcv.stage_accum (hs : f.seqstate = .awaitingReply) (hp : f.rxphase = .accum) :
    f.stage = 129 - f.rxbuf.length := by
  rw [Fcv.stage, hs, hp]

/-- An attempt that awaits its reply is not yet judged. -/
theorem FcvInv.stage_pos (h : FcvInv p f) (hs : f.seqstate = .awaitingReply) : 0 < f.stage := by
  have hbound := h.receiveBound
  have hphase : f.rxphase = .hunt ∨ f.rxphase = .accum := by cases f.rxphase <;> simp
  rcases hphase with hp | hp
  · rw [Fcv.stage_hunt hs hp]
    decide
  · rw [Fcv.stage_accum hs hp]
    omega

/-- An answer to a read is noise, ends the operation, or advances the attempt (R114 to R117). -/
theorem FcvInv.rxAnswer_progress (h : FcvInv p f) (hs : f.seqstate = .awaitingReply) (a : RxAnswer) :
    (f.rxAnswer a = f ∧ ∃ b, a = .byte b ∧ b ≠ 0x23) ∨ (f.rxAnswer a).busy = false ∨ (f.rxAnswer a).rank < f.rank := by
  have hbound := h.receiveBound
  have hpos := h.stage_pos hs
  have hrank : (f.rxAnswer a).stage < f.stage → (f.rxAnswer a).rank < f.rank := by
    rw [Fcv.rank, Fcv.rank, f.rxAnswer_attemptsLeft a]
    omega
  rcases f.rxAnswer_cases a with ⟨-, he, hb⟩ | ⟨hp, he⟩ | ⟨hp, hroom, b, he⟩ | hout | hout | hout
  · exact .inl ⟨he, hb⟩
  · refine .inr (.inr (hrank ?_))
    rw [he, Fcv.stage_hunt hs hp, Fcv.stage_accum (f := { f with rxbuf := [0x23], rxphase := .accum }) hs rfl]
    exact Nat.sub_lt_succ 129 1
  · refine .inr (.inr (hrank ?_))
    rw [he, Fcv.stage_accum hs hp, Fcv.stage_accum (f := { f with rxbuf := f.rxbuf ++ [b] }) hs hp]
    simp only [List.length_append, List.length_singleton]
    omega
  · exact .inr (.inr (hrank (by rwa [Fcv.stage, hout])))
  · exact .inr (.inr (hrank (by rwa [Fcv.stage, hout])))
  · exact .inr (.inl ((Fcv.not_busy_iff _).mpr (.inr (.inr (.inr hout)))))

/-! ### Ending -/

/-- The operation in progress in `s` ends within `n` steps, the invariant kept. -/
def EndsWithin (n : Nat) (s : State) : Prop :=
  ∃ k t, k ≤ n ∧ runSteps k s = .next t ∧ t.fcv.busy = false ∧ MachineInv t

theorem EndsWithin.of_idle (n : Nat) (hb : s.fcv.busy = false) (h : MachineInv s) : EndsWithin n s :=
  ⟨0, s, Nat.zero_le n, rfl, hb, h⟩

theorem EndsWithin.of_step {m n : Nat} {rx : List RxAnswer} (hsched : s.schedule = [])
    (hstep : seqStep (s.hearing rx) = .next t) (h : EndsWithin m t) (hmn : m < n) : EndsWithin n (s.hearing rx) := by
  obtain ⟨k, u, hk, hu, hb, hinv⟩ := h
  refine ⟨k + 1, u, by omega, ?_, hb, hinv⟩
  rw [runSteps_succ (s.hearing rx) t k (by rw [step_nil (s.hearing rx) hsched, hstep]), hu]

theorem EndsWithin.mono {m n : Nat} (h : EndsWithin m s) (hmn : m ≤ n) : EndsWithin n s := by
  obtain ⟨k, u, hk, hu⟩ := h
  exact ⟨k, u, hk.trans hmn, hu⟩

/-- A state in progress with nothing scheduled that meets the invariant. -/
structure InProgress (s : State) : Prop where
  inv : MachineInv s
  busy : s.fcv.busy = true
  schedule : s.schedule = []

/-- What a sequencer step leads to from a state in progress: the end, or another state in progress. -/
theorem InProgress.next (h : InProgress s) (hstep : seqStep s = .next t) :
    MachineInv t ∧ (t.fcv.busy = false ∨ InProgress t) := by
  obtain ⟨hparams, hsched, -⟩ := seqStep_surroundings s t hstep
  have hinv : MachineInv t := by
    have := seqStep_inv s t h.inv hstep
    rwa [← hparams] at this
  refine ⟨hinv, ?_⟩
  cases hb : t.fcv.busy with
  | false => exact .inl rfl
  | true => exact .inr ⟨hinv, hb, hsched.trans h.schedule⟩

/-- In a state that awaits no reply: one step, the same whatever the answers to come (R113, R118, R119). -/
theorem InProgress.quiet_step (h : InProgress s) (hs : s.fcv.seqstate ≠ .awaitingReply) :
    ∃ t, (∀ rx, seqStep (s.hearing rx) = .next (t.hearing rx)) ∧ MachineInv t ∧ t.fcv.owed < s.fcv.owed ∧
      (t.fcv.busy = false ∨ InProgress t ∧ t.fcv.rank < s.fcv.rank) := by
  obtain ⟨t, ht⟩ := seqStep_completes s h.inv h.busy
  obtain ⟨hinv, hnext⟩ := h.next ht
  obtain ⟨howed, hless⟩ := seqStep_progress hs h.busy ht
  exact ⟨t, fun rx => seqStep_hearing rx hs ht, hinv, howed, by tauto⟩

/-- In AWAITING_REPLY: one read (R114). -/
theorem InProgress.read_step (h : InProgress s) (hs : s.fcv.seqstate = .awaitingReply) (a : RxAnswer) :
    MachineInv (s.withFcv (s.fcv.rxAnswer a)) ∧
      ((s.fcv.rxAnswer a).busy = false ∨ InProgress (s.withFcv (s.fcv.rxAnswer a))) := by
  have hheard : InProgress (s.hearing [a]) := ⟨h.inv, h.busy, h.schedule⟩
  obtain ⟨hinv, hnext⟩ := hheard.next (seqStep_hearing_cons a [] hs)
  exact ⟨hinv, hnext.imp_right fun hprog => ⟨hinv, hprog.busy, h.schedule⟩⟩

/-- An answer that is no byte ends a receive (R114). -/
theorem Fcv.rxAnswer_stop (f : Fcv) (a : RxAnswer) (ha : a = .timeout ∨ a = .transportFault) :
    (f.rxAnswer a).busy = false := by
  rcases ha with rfl | rfl <;> rfl

/-- The answers are bytes and then a Timeout or a TransportFault: each byte costs at most three steps, its own read and
the two that may be owed after it. -/
theorem InProgress.ends_at_stop (h : InProgress s) (bytes : List Byte) (a : RxAnswer) (later : List RxAnswer)
    (ha : a = .timeout ∨ a = .transportFault) :
    EndsWithin (3 * bytes.length + 1 + s.fcv.owed) (s.hearing (answers bytes ++ a :: later)) := by
  induction hn : 3 * bytes.length + s.fcv.owed using Nat.strong_induction_on generalizing s bytes with
  | _ n ih =>
    by_cases hs : s.fcv.seqstate = .awaitingReply
    · cases bytes with
      | nil =>
        have hidle := s.fcv.rxAnswer_stop a ha
        exact .of_step h.schedule (seqStep_hearing_cons a later hs) (.of_idle 0 hidle (h.read_step hs a).1) (by omega)
      | cons b bytes =>
        have howed := (s.fcv.rxAnswer (.byte b)).owed_le
        have hcons := seqStep_hearing_cons (.byte b) (answers bytes ++ a :: later) hs
        rw [List.length_cons] at hn ⊢
        obtain ⟨hinv, hidle | hprog⟩ := h.read_step hs (.byte b)
        · exact .of_step h.schedule hcons (.of_idle 0 hidle hinv) (by omega)
        · exact .of_step h.schedule hcons (ih _ (by rw [State.withFcv_fcv]; omega) hprog bytes rfl)
            (by rw [State.withFcv_fcv]; omega)
    · obtain ⟨t, ht, hinv, howed, hidle | ⟨hprog, -⟩⟩ := h.quiet_step hs
      · exact .of_step h.schedule (ht _) (.of_idle 0 hidle hinv) (by omega)
      · exact .of_step h.schedule (ht _) (ih _ (by omega) hprog bytes rfl) (by omega)

/-! ### Fair transports -/

theorem FairAnswers.later {x : Nat → RxAnswer} (hx : FairAnswers x) : FairAnswers (laterAnswers x 1) := by
  intro n
  obtain ⟨m, hm, hstop⟩ := hx (1 + n)
  refine ⟨m - 1, by omega, ?_⟩
  rwa [laterAnswers, show 1 + (m - 1) = m by omega]

/-- The operation in progress in `s` ends after some number of the answers `x`, whatever would follow them. -/
def EndsOn (x : Nat → RxAnswer) (s : State) : Prop :=
  ∃ k, ∀ later, EndsWithin (3 * k + s.fcv.owed) (s.hearing (firstAnswers x k ++ later))

theorem EndsOn.of_idle (x : Nat → RxAnswer) (hb : s.fcv.busy = false) (h : MachineInv s) : EndsOn x s :=
  ⟨0, fun _ => .of_idle _ hb h⟩

/-- A state that awaits no reply ends if its next states of lower rank do. -/
theorem EndsOn.of_quiet {x : Nat → RxAnswer} (h : InProgress s) (hs : s.fcv.seqstate ≠ .awaitingReply)
    (hless : ∀ t, InProgress t → t.fcv.rank < s.fcv.rank → EndsOn x t) : EndsOn x s := by
  obtain ⟨t, ht, hinv, howed, hnext⟩ := h.quiet_step hs
  have hend : EndsOn x t := by
    rcases hnext with hidle | ⟨hprog, hrank⟩
    · exact .of_idle x hidle hinv
    · exact hless t hprog hrank
  obtain ⟨k, hk⟩ := hend
  exact ⟨k, fun later => .of_step h.schedule (ht _) (hk later) (by omega)⟩

/-- A state in AWAITING_REPLY ends if its next states of lower rank do and, where the answer is noise, it does itself on
the answers after that. -/
theorem EndsOn.of_read {x : Nat → RxAnswer} (h : InProgress s) (hs : s.fcv.seqstate = .awaitingReply)
    (hnoise : (∃ b, x 0 = .byte b ∧ b ≠ 0x23) → EndsOn (laterAnswers x 1) s)
    (hless : ∀ t, InProgress t → t.fcv.rank < s.fcv.rank → EndsOn (laterAnswers x 1) t) : EndsOn x s := by
  have hend : EndsOn (laterAnswers x 1) (s.withFcv (s.fcv.rxAnswer (x 0))) := by
    obtain ⟨hinv, hidle | hprog⟩ := h.read_step hs (x 0)
    · exact .of_idle _ hidle hinv
    · rcases FcvInv.rxAnswer_progress h.inv hs (x 0) with ⟨he, hb⟩ | hidle | hrank
      · rw [he]
        exact hnoise hb
      · exact .of_idle _ hidle hinv
      · exact hless _ hprog hrank
  obtain ⟨k, hk⟩ := hend
  have howed := (s.fcv.rxAnswer (x 0)).owed_le
  exact ⟨k + 1, fun later => .of_step h.schedule (seqStep_hearing_cons (x 0) _ hs) (hk later)
    (by rw [State.withFcv_fcv]; omega)⟩

/-- On a fair transport an operation ends: its rank falls with every step but a read of noise, and noise lasts only until
the next `#`, Timeout or TransportFault, `m` answers ahead. -/
theorem InProgress.ends_fairly (h : InProgress s) (x : Nat → RxAnswer) (hx : FairAnswers x) : EndsOn x s := by
  induction hn : s.fcv.rank using Nat.strong_induction_on generalizing s x with
  | _ n ih =>
    by_cases hs : s.fcv.seqstate = .awaitingReply
    · obtain ⟨m, -, hm⟩ := hx 0
      induction m generalizing x with
      | zero =>
        refine .of_read h hs (fun ⟨b, hb, hne⟩ => ?_) fun t hprog hrank => ih _ (hn ▸ hrank) hprog _ hx.later rfl
        simp only [hb, RxAnswer.byte.injEq, reduceCtorEq, or_false] at hm
        exact absurd hm hne
      | succ m ihm =>
        exact .of_read h hs (fun _ => ihm _ hx.later (by rwa [laterAnswers, Nat.add_comm]))
          fun t hprog hrank => ih _ (hn ▸ hrank) hprog _ hx.later rfl
    · exact .of_quiet h hs fun t hprog hrank => ih _ (hn ▸ hrank) hprog x hx rfl

/-- Settles O60. -/
theorem operationEndsOnFairTransport : Obligations.OperationEndsOnFairTransport := by
  refine ⟨fun s x hinv hb hsched hx => ?_, fun s bytes a later hinv hb hsched ha hrx => ?_⟩
  · have howed := s.fcv.owed_le
    obtain ⟨k, hk⟩ := InProgress.ends_fairly ⟨hinv, hb, hsched⟩ x hx
    exact ⟨k, fun later => (hk later).mono (by omega)⟩
  · have howed := s.fcv.owed_le
    have hend := InProgress.ends_at_stop ⟨hinv, hb, hsched⟩ bytes a later ha
    rw [← hrx] at hend
    exact hend.mono (by omega)

end Sys2Proof.Machine
end

section
/-! Reset from outside (spec 70_reset_and_hazards.md R139 to R142): what it leaves of a frame write, and all that it keeps. -/

namespace Sys2Proof.Machine

variable (s : State) (n : Nat)

/-- All that a reset can do to a state before FCV takes its reset values: put one cut write on record (R142). -/
theorem State.cutTx_cases : s.cutTx n = s ∨ ∃ frame, s.cutTx n = s.logTx (.cutByReset frame n) := by
  unfold State.cutTx
  split_ifs
  · split
    · exact .inr ⟨_, rfl⟩
    · exact .inl rfl
    · exact .inl rfl
  · exact .inl rfl

@[simp] theorem resetFcv_fcv : (resetFcv n s).fcv = Fcv.reset := rfl

@[simp] theorem resetFcv_params : (resetFcv n s).params = s.params := by
  rcases s.cutTx_cases n with h | ⟨frame, h⟩ <;> simp [resetFcv, h]

@[simp] theorem resetFcv_schedule : (resetFcv n s).schedule = s.schedule := by
  rcases s.cutTx_cases n with h | ⟨frame, h⟩ <;> simp [resetFcv, h]

@[simp] theorem resetFcv_reads : (resetFcv n s).reads = s.reads := by
  rcases s.cutTx_cases n with h | ⟨frame, h⟩ <;> simp [resetFcv, h]

/-- The unread bytes, and every answer to a read still to come, outlast a reset (R142). -/
@[simp] theorem resetFcv_line_rx : (resetFcv n s).line.rx = s.line.rx := by
  rcases resetFcv_line s n with h | ⟨-, frame, -, h⟩ <;> rw [h]
  rfl

/-- The answers to writes still to come outlast a reset: a write it cuts takes none. -/
@[simp] theorem resetFcv_line_tx : (resetFcv n s).line.tx = s.line.tx := by
  rcases resetFcv_line s n with h | ⟨-, frame, -, h⟩ <;> rw [h]
  rfl

/-- Outside SENDING no write is in progress, so a reset leaves the transport alone. -/
theorem resetFcv_line_of_not_sending (h : s.fcv.seqstate ≠ .sending) : (resetFcv n s).line = s.line := by
  rcases resetFcv_line s n with hsame | ⟨hs, -⟩
  · exact hsame
  · exact absurd hs h

/-- In SENDING a reset puts the command frame on record as cut after `n` bytes (R142). -/
theorem resetFcv_sent_of_sending {frame : List Byte} (hs : s.fcv.seqstate = .sending)
    (hf : s.fcv.commandFrame = some (.ok frame)) :
    (resetFcv n s).line.sent = s.line.sent ++ [.cutByReset frame n] := by
  have hcut : s.cutTx n = s.logTx (.cutByReset frame n) := by rw [State.cutTx, if_pos hs, hf]
  rw [resetFcv, hcut]
  rfl

/-- Settles O42: the outgoing line follows from the one write the reset puts on record. -/
theorem resetFromAnyState : Obligations.ResetFromAnyState := by
  intro s rest n
  let s0 := s.withSchedule rest
  exact ⟨resetFcv n s0, step_before_reset s n rest, resetFcv_fcv s0 n, resetFcv_params s0 n, resetFcv_schedule s0 n,
    resetFcv_reads s0 n, resetFcv_line_rx s0 n, resetFcv_line_tx s0 n, resetFcv_line_of_not_sending s0 n,
    fun frame hs hf => Transport.outgoing_append _ (resetFcv_sent_of_sending s0 n hs hf)⟩

end Sys2Proof.Machine
end
